-- ==== Sys2Proof/Word.lean ====
section
/-!
DEFINITION. The word types of the block (R6, R9, R11): 16-bit addresses, 8-bit bytes, 2-bit bank numbers.
-/

namespace Sys2Proof

/-- `u8`, the width of every transfer (DATA_W, R6). -/
abbrev Byte := BitVec 8

/-- `u16`, the width of every address and of a BANK-port offset (ADDR_W, R6). -/
abbrev Addr := BitVec 16

/-- `Bank`: the set {0, 1, 2, 3}, carried as 2 bits (R11, R157). -/
abbrev Bank := BitVec 2

end Sys2Proof
end

