-- ==== Sys2Proof/Syntax.lean ====
section
/-!
DEFINITION. The five transactions of the block (R81), one constructor per row of spec/opcode_table.json, and the
request words of the two ports (R70, R71, R74).
-/

namespace Sys2Proof

/-- The transactions. RD, NM and BR have no DATA operand: "RD and NM ignore DATA" (R73, R74). Every operand has exactly
the width of its field, so no term of this type is ill-formed; the range checks stand where numbers enter (WellFormed). -/
inductive Instr where
  /-- RD, bus read (R120). -/
  | rd (addr : Addr)
  /-- WR, bus write (R130). -/
  | wr (addr : Addr) (data : Byte)
  /-- NM, name lookup (R170). -/
  | nm (addr : Addr)
  /-- BR, banked read (R152). -/
  | br (bank : Bank) (offset : Addr)
  /-- BW, banked write (R153). -/
  | bw (bank : Bank) (offset : Addr) (data : Byte)
deriving DecidableEq, Repr

/-- A request word with the port it came from: 26 bits on BUS (R71), 28 bits on BANK (R74).
"A decoder always knows which port a word came from" (R70). -/
inductive ReqWord where
  | bus (w : BitVec 26)
  | bank (w : BitVec 28)
deriving DecidableEq, Repr

end Sys2Proof
end

