-- ==== Sys2Proof/Decode.lean ====
section
/-!
DEFINITION. The decoder of request words, total on both ports and refusing a reserved code by name (R71 to R74, R79),
the encoder written from the same tables, and the reading of a row of spec/opcode_table.json.
-/

namespace Sys2Proof

/-- Why a word is no transaction (R79). -/
inductive Reserved where
  /-- A BUS word with OP = 0b11. -/
  | busOp
  /-- A BANK word with OP2 = 0b10 or 0b11. -/
  | bankOp2
deriving DecidableEq, Repr

/-- OP, bits 25:24 of a BUS word (R71). -/
def busOpField (w : BitVec 26) : BitVec 2 := w.extractLsb' 24 2

/-- OP2, bits 27:26 of a BANK word (R74). -/
def bankOpField (w : BitVec 28) : BitVec 2 := w.extractLsb' 26 2

/-- R71, R72: a BUS word is the fields OP[25:24], ADDR[23:8], DATA[7:0]; RD and NM ignore DATA (R73). -/
def decodeBus (w : BitVec 26) : Except Reserved Instr :=
  let addr : Addr := w.extractLsb' 8 16
  let data : Byte := w.extractLsb' 0 8
  if busOpField w = 0b00#2 then .ok (.rd addr)
  else if busOpField w = 0b01#2 then .ok (.wr addr data)
  else if busOpField w = 0b10#2 then .ok (.nm addr)
  else .error .busOp

/-- R74: a BANK word is the fields OP2[27:26], BANK[25:24], OFFSET[23:8], DATA[7:0]; BR ignores DATA. -/
def decodeBank (w : BitVec 28) : Except Reserved Instr :=
  let bank : Bank := w.extractLsb' 24 2
  let offset : Addr := w.extractLsb' 8 16
  let data : Byte := w.extractLsb' 0 8
  if bankOpField w = 0b00#2 then .ok (.br bank offset)
  else if bankOpField w = 0b01#2 then .ok (.bw bank offset data)
  else .error .bankOp2

/-- The instruction of a request word; the port says which format it has (R70). -/
def decode : ReqWord → Except Reserved Instr
  | .bus w => decodeBus w
  | .bank w => decodeBank w

/-- `{OP, ADDR, DATA}` (R71). -/
def busWord (op : BitVec 2) (a : Addr) (d : Byte) : BitVec 26 := op ++ a ++ d

/-- `{OP2, BANK, OFFSET, DATA}` (R74). -/
def bankWord (op2 : BitVec 2) (k : Bank) (o : Addr) (d : Byte) : BitVec 28 := op2 ++ k ++ o ++ d

/-- The request word of an instruction (R71, R72, R74); DATA is 0x00 where it is ignored (R73, R82). -/
def encode : Instr → ReqWord
  | .rd a => .bus (busWord 0b00#2 a 0x00#8)
  | .wr a d => .bus (busWord 0b01#2 a d)
  | .nm a => .bus (busWord 0b10#2 a 0x00#8)
  | .br k o => .bank (bankWord 0b00#2 k o 0x00#8)
  | .bw k o d => .bank (bankWord 0b01#2 k o d)

/-- The request word that a number of the opcode table stands for. DESIGN CHOICE (notes/assumptions/10.md): a number and
a width do not say the port, which the table names in words. A width of 26 bits or fewer is a BUS word and of 27 or 28 a
BANK word; in a wider one (28 bits in whole bytes) the word is a BUS word if it fits 26 bits and its OP is not reserved,
else a BANK word. -/
def tableWord (nbits w : Nat) : Option ReqWord :=
  if nbits ≤ 26 then
    if w < 2 ^ 26 then some (.bus (BitVec.ofNat 26 w)) else none
  else if w < 2 ^ 28 then
    if 28 < nbits ∧ w < 3 * 2 ^ 24 then some (.bus (BitVec.ofNat 26 w))
    else some (.bank (BitVec.ofNat 28 w))
  else none

/-- The host's question: the instruction this decoder reads from a row's bits. -/
def decodeTableWord (nbits w : Nat) : Option Instr :=
  match tableWord nbits w with
  | some r => (decode r).toOption
  | none => none

end Sys2Proof
end

