-- ==== Sys2Proof/Config.lean ====
section
/-!
DEFINITION. The configuration record `Cfg` of R7, the fixed parameters of R6, and the free values.
The two named configurations CFG_REF and CFG_S89 stand in Machine/Configs.lean.
-/

namespace Sys2Proof

/-- The two external device models (R8, R10). -/
inductive Device where
  | pia
  | fdc
deriving DecidableEq, Repr

/-- A storage cell of the block: a byte of ROM, of PRG_RAM or of one bank of WAV_RAM, by its index (R23 to R25). -/
inductive StoreCell where
  | rom (o : Nat)
  | ram (o : Nat)
  | wav (k : Bank) (o : Nat)
deriving DecidableEq, Repr

/-- R7: the configuration parameters, one record that every run fixes before startup. -/
structure Cfg where
  romStart : Addr
  romEnd : Addr
  ramStart : Addr
  ramEnd : Addr
  wavStart : Addr
  wavEnd : Addr
  cartStart : Addr
  cartEnd : Addr
  piaPage : Byte
  fdcPage : Byte
  sndPage : Byte
  /-- NAMED_TABLE: ordered, N_NAMED is its length. -/
  namedTable : List (Addr × String)
  lblPia : String
  lblFdc : String
  lblSnd : String
  /-- LEGACY_PRECEDENCE_BUG, false by default (R7, R174). -/
  legacyPrecedenceBug : Bool := false
  /-- ROM_IMAGE: what startup loads into `rom`. -/
  romImage : List Byte
deriving DecidableEq, Repr

namespace Cfg

/-- ROM_SIZE = ROM_END - ROM_START + 1, over the integers (R7). -/
def romSize (c : Cfg) : Int := (c.romEnd.toNat : Int) - c.romStart.toNat + 1

/-- RAM_SIZE = RAM_END - RAM_START + 1, over the integers (R7). -/
def ramSize (c : Cfg) : Int := (c.ramEnd.toNat : Int) - c.ramStart.toNat + 1

/-- BANK_SIZE = WAV_END - WAV_START + 1, over the integers (R7). -/
def bankSize (c : Cfg) : Int := (c.wavEnd.toNat : Int) - c.wavStart.toNat + 1

end Cfg

namespace Config

/-- FLT_PAGE, the filter-register window (R6). -/
def fltPage : Byte := 0xE4#8

/-- SER_PAGE, the serial-I/O window, which `decode` does not test (R6, R105). -/
def serPage : Byte := 0xE1#8

/-- BUSFAULT_PAGE, the crash-signature page (R6, R174). -/
def busfaultPage : Byte := 0x7F#8

/-- OPEN_BUS: the read value where no region matches (R6). -/
def openBus : Byte := 0xFF#8

/-- CART_RD: the read value of the CART range (R6). -/
def cartRd : Byte := 0xFF#8

/-- SND_RD: the read value of the sound-chip window (R6). -/
def sndRd : Byte := 0xFF#8

/-- FLT_RD: the read value of the filter window (R6). -/
def fltRd : Byte := 0xFF#8

/-- LBL_WAV (R6). -/
def lblWav : String := "wav data section"

/-- LBL_BUSFAULT (R6). -/
def lblBusfault : String := "unknown bus-fault region"

/-- LBL_DEFAULT (R6). -/
def lblDefault : String := "?"

/-- FREE VALUE (notes/assumptions/2.md): the byte a cell that nothing has written holds, by the startup's
number and the cell: "unspecified: a draw, any byte, until first written" (R34). No body: nothing can evaluate it. -/
opaque startByte : Nat → StoreCell → Byte

/-- FREE VALUE (notes/assumptions/3.md): the answer of a device model to `readRegister(index)` when the run's
input lists no answer for it, by the number of answers drawn before, the device and the index (R8). -/
opaque deviceAnswer : Nat → Device → Byte → Byte

/-- FREE VALUE (notes/assumptions/11.md): whether one fault report reads a 17th byte, the one at SP+16
(91_not_in_source.md N22 leaves 16 or 17 open). -/
opaque stackWalkReadsSeventeenth : Bool

/-- FREE VALUE (notes/assumptions/5.md): the bytes of ROM_IMAGE_S89 after byte 0, "the scenario's free choice" (R47). -/
opaque s89RomByte : Nat → Byte

end Config

end Sys2Proof
end

