-- ==== Sys2Proof/Machine/Configs.lean ====
section
/-!
DEFINITION. The two named configurations of the spec: CFG_REF (R48) and CFG_S89 (R47), with NT_TEST and the ROM images
of 95_test_vectors.md. They are test configurations, not claims about a firmware's map.
-/

namespace Sys2Proof.Config

/-- NT_TEST (95_test_vectors.md, D29). -/
def ntTest : List (Addr × String) :=
  [(0xF000#16, "OS_ENTRY_T"), (0xE205#16, "PIA_REG5_T"), (0x9000#16, "WAV_T"), (0xF000#16, "DUP_T"),
   (0x7F20#16, "CRASH_T")]

/-- A ROM image's bytes from index `o` on, `n` of them, each given by its index. -/
def imageFrom (f : Nat → Byte) : Nat → Nat → List Byte
  | 0, _ => []
  | n + 1, o => f o :: imageFrom f n (o + 1)

/-- A byte of ROM_IMAGE_REF: `rom[o] = (o & 0xFF) ^ 0x5A` (R48). -/
def refRomByte (o : Nat) : Byte := BitVec.ofNat 8 o ^^^ 0x5A#8

/-- CFG_REF, the spec's reference configuration (R48). -/
def cfgRef : Cfg where
  romStart := 0xF000#16
  romEnd := 0xFFFF#16
  ramStart := 0x0000#16
  ramEnd := 0x7FFF#16
  wavStart := 0x8000#16
  wavEnd := 0xBEFF#16
  cartStart := 0xC000#16
  cartEnd := 0xDFFF#16
  piaPage := 0xE2#8
  fdcPage := 0xE8#8
  sndPage := 0xEC#8
  namedTable := ntTest
  lblPia := "PIA window"
  lblFdc := "FDC window"
  lblSnd := "sound-chip window"
  legacyPrecedenceBug := false
  romImage := imageFrom refRomByte 4096 0

/-- CFG_S89, the map of the source's example scenario (R47): byte 0 of its ROM image is 0xAB, the others are free. -/
def cfgS89 : Cfg where
  romStart := 0xC000#16
  romEnd := 0xFFFF#16
  ramStart := 0x0000#16
  ramEnd := 0x7FFF#16
  wavStart := 0x8000#16
  wavEnd := 0xBEFF#16
  cartStart := 0xFFFF#16
  cartEnd := 0x0000#16
  piaPage := 0xE2#8
  fdcPage := 0xE8#8
  sndPage := 0xEC#8
  namedTable := ntTest
  lblPia := "PIA window"
  lblFdc := "FDC window"
  lblSnd := "sound-chip window"
  legacyPrecedenceBug := false
  romImage := 0xAB#8 :: imageFrom s89RomByte 16383 1

end Sys2Proof.Config
end

