-- ==== Sys2Proof/Machine/State.lean ====
section
/-!
DEFINITION. The state of the block as plain data (R20 to R34), the records it keeps, the reasons a step can stop, and
the state after reset.
-/

namespace Sys2Proof.Machine

/-- The regions of `decode` (R11, R76). `openBus` is the spec's OPEN. -/
inductive Region where
  | openBus
  | rom
  | ram
  | wav
  | cart
  | pia
  | fdc
  | snd
  | flt
deriving DecidableEq, Repr

/-- The labels of the labeler (R11, R77). -/
inductive Label where
  | named (i : Nat)
  | wav
  | winPia
  | winFdc
  | winSnd
  | busfault
  | default
deriving DecidableEq, Repr

/-- An entry of the device-call history (R10): one `readRegister` with its answer, or one `writeRegister`. -/
inductive DevEvent where
  | devRd (d : Device) (index answer : Byte)
  | devWr (d : Device) (index value : Byte)
deriving DecidableEq, Repr

/-- The two accesses that a log line of R139 names. -/
inductive BusOp where
  | rd
  | wr
deriving DecidableEq, Repr

/-- The trace hooks of the external Diagnostics (R214, R216). -/
inductive Hook where
  | onBranch
  | onBranchToSubroutine
  | onNmi
  | onIrq
  | onFirq
deriving DecidableEq, Repr

/-- The events of the observation channel (R120, R130, R139, R140, R216). -/
inductive LogEvent where
  | sndRead (index : Byte)
  | sndWrite (index value : Byte)
  | fltRead (index : Byte)
  | fltWrite (index value : Byte)
  | annotate (a : Addr) (l : Label)
  | access (op : BusOp) (a : Addr) (r : Region) (v : Byte)
  | trace (h : Hook) (dest : Addr) (l : Label)
deriving DecidableEq, Repr

/-- What a transaction answers (R75): a byte for RD and BR, a Label for NM. WR and BW answer nothing. -/
inductive Response where
  | byte (v : Byte)
  | label (l : Label)
deriving DecidableEq, Repr

/-- A record of the sticky fault mark: the fault and its info (R31, R204). A `ReqWord` is a port with a request word. -/
inductive FaultRecord where
  /-- Code 1: a reserved OP or OP2 code; the port and the request word (R203). -/
  | badOp (w : ReqWord)
  /-- Code 2: an OFFSET at or above BANK_SIZE; the bank and the offset (R202). -/
  | offsetFault (bank : Bank) (offset : Addr)
deriving DecidableEq, Repr

/-- What the host presents to the block, one at a time (R5, R12 "Host"): a request word on a port, or an act of the
external host that touches the block. Not one of the acts is a transaction, and none has an encoding (R82). -/
inductive Request where
  /-- A request word on its port (R70). -/
  | word (w : ReqWord)
  /-- `MemRead(a, n)` (R10, R52). -/
  | memRead (a : Addr) (n : Nat)
  /-- `MemWrite(a, n, v)` (R10, R52). -/
  | memWrite (a : Addr) (n : Nat) (v : Byte)
  /-- Boot, step 2: load ROM_IMAGE (R242). -/
  | loadRom
  /-- The host sets the debug flag (R29). -/
  | setDebug (b : Bool)
  /-- `reportFault` with the stack pointer it walks from: its bus reads, then `setEmergency` (R209). -/
  | reportFault (sp : Addr)
  /-- The last act of `reportFault`: `emergency` becomes 1 (R207). -/
  | setEmergency
  /-- A trace hook with the destination it resolves (R216). -/
  | traceHook (h : Hook) (dest : Addr)
deriving DecidableEq, Repr

/-- A storage array as the bytes written so far, by cell index. Canonical form: indexes strictly rising
(`Memory.wf`). An unlisted cell has not been written. -/
abbrev Memory := List Host.Cell

/-- The state of the block, its observable history (D1) and its inputs. -/
structure State where
  /-- The configuration, constant in a run (R7, R26, R33). -/
  cfg : Cfg
  /-- Whether ROM_IMAGE is loaded (R242): before that no transaction has a step. -/
  booted : Bool
  /-- `rom` (R23). -/
  rom : List Byte
  /-- `ram`, PRG_RAM (R24). -/
  ram : Memory
  /-- `wav[0]` to `wav[3]` (R25). -/
  wav : Vector Memory 4
  /-- `debug` (R29). -/
  debug : Bool
  /-- `emergency` (R30). -/
  emergency : Bool
  /-- `fault`, the sticky fault mark (R31). -/
  fault : Option FaultRecord
  /-- The device-call history, oldest first (R10, R34). -/
  history : List DevEvent
  /-- The responses given, oldest first (R75, D1). -/
  responses : List Response
  /-- The observation channel, oldest first (R34, R139). -/
  log : List LogEvent
  /-- INPUT: what the host presents, next first (R5). -/
  requests : List Request
  /-- INPUT: the answers of the PIA model's next `readRegister` calls, next first (R8). -/
  piaAnswers : List Byte
  /-- INPUT: the answers of the FDC model's next `readRegister` calls, next first (R8). -/
  fdcAnswers : List Byte
  /-- The model's own: which startup this is, the argument of `Config.startByte` (notes/assumptions/2.md). -/
  startup : Nat
  /-- The model's own: how many device answers were drawn, the argument of `Config.deviceAnswer`
  (notes/assumptions/3.md). -/
  draws : Nat
deriving DecidableEq, Repr

/-- Why the block has no step: "a model leaves it stuck" (R205, R208). -/
inductive Fault where
  /-- Raised by `transact` and `idle` when the fault mark is set (R205). Safe: nothing is proved past it. -/
  | stuckFaulted (r : FaultRecord)
  /-- Raised by `transact` for every request but NM while `emergency = 1` (R208). Safe. -/
  | stuckEmergency
deriving DecidableEq, Repr

/-- Why the model gives no meaning. -/
inductive Refusal where
  /-- An instruction whose arm of `exec` has no meaning yet. No arm is left so. -/
  | notModelled (mnemonic : String)
  /-- Raised by `transact`: a transaction before ROM_IMAGE is loaded (R242). Safe. -/
  | romNotLoaded
  /-- Raised by `loadRom`: ROM_IMAGE has not exactly ROM_SIZE bytes, so the block never starts (R242). Safe. -/
  | romImageSize
  /-- Raised by `loadRom` when ROM is loaded already: "initialized once at startup" (R23). Safe. -/
  | romAlreadyLoaded
  /-- Raised by `perform` for an access wider or narrower than one byte (R52). Safe. -/
  | accessWidth (n : Nat)
deriving DecidableEq, Repr

/-- The process start before ROM_IMAGE is loaded: configuration fixed, nothing else done (R242, step 1). -/
def State.powerOn (c : Cfg) : State where
  cfg := c
  booted := false
  rom := []
  ram := []
  wav := Vector.replicate 4 []
  debug := false
  emergency := false
  fault := none
  history := []
  responses := []
  log := []
  requests := []
  piaAnswers := []
  fdcAnswers := []
  startup := 0
  draws := 0

/-- The state after startup under a configuration (R34, R240): `rom` holds ROM_IMAGE, no cell of `ram` or `wav` is
written, `debug = 0`, `emergency = 0`, `fault` none, the history and the log empty. -/
def State.started (c : Cfg) : State :=
  { State.powerOn c with booted := true, rom := c.romImage }

/-- The machine right after reset. DESIGN CHOICE (notes/assumptions/1.md): the spec leaves the production configuration
open (D6), and the model's reset state takes the spec's reference configuration CFG_REF (R48). -/
def State.reset : State := State.started Config.cfgRef

end Sys2Proof.Machine
end

