-- ==== Sys2Proof/Machine/Flags.lean ====
section
/-!
DEFINITION. The block computes no condition codes or result flags (R22). Its two one-bit flags are modes, and what they
and the fault mark do to a transaction is here, once (R205, R206, R208, R242). `debug` gates log lines only (R29) and is
read in Machine/Ops.lean.
-/

namespace Sys2Proof.Machine

/-- The checks before a transaction performs its rule, in the order of R206: ROM must be loaded (R242), the fault mark
must be clear (R205), and while `emergency = 1` only a transaction that answers there, NM, goes on (R208). -/
def transact (answersInEmergency : Bool) (s : State)
    (body : State → Host.Outcome State Fault Refusal) : Host.Outcome State Fault Refusal :=
  if s.booted then
    match s.fault with
    | some r => .fault (.stuckFaulted r)
    | none => if s.emergency && !answersInEmergency then .fault .stuckEmergency else body s
  else .refused .romNotLoaded

/-- No request is pending: the block waits for one, and one whose fault mark is set is stuck (R205).
DEDUCED (notes/assumptions/6.md): the block has no clock (R5) and acts only on a request. -/
def idle (s : State) : Host.Outcome State Fault Refusal :=
  match s.fault with
  | some r => .fault (.stuckFaulted r)
  | none => .next s

end Sys2Proof.Machine
end

