-- ==== Sys2Proof/Machine/Operands.lean ====
section
/-!
DEFINITION. Operand assembly (R78): the values a transaction derives from ADDR, and the two address tests of
`decode` and `label`, the inclusive range (R43, R101) and the window page (R102).
-/

namespace Sys2Proof.Machine

/-- page = ADDR[15:8] (R78). -/
def pageOf (a : Addr) : Byte := a.extractLsb' 8 8

/-- Device register index = ADDR[7:0] (R78). -/
def indexOf (a : Addr) : Byte := a.extractLsb' 0 8

/-- Region offset = ADDR - X_START modulo 2^16 (R78). -/
def offsetFrom (start a : Addr) : Nat := (a - start).toNat

/-- The bank in a PIA answer: bits 1:0; bits 7:2 have no effect (R150). -/
def bankOf (answer : Byte) : Bank := answer.extractLsb' 0 2

/-- `X_START <= a and a <= X_END`, unsigned, both bounds included (R43). -/
def inRange (lo hi a : Addr) : Bool := decide (lo ≤ a) && decide (a ≤ hi)

/-- The labeler's mask-compare, `(a & 0xFF00) == (PAGE << 8)` (R102, R173). -/
def maskMatches (page : Byte) (a : Addr) : Bool :=
  decide (a &&& 0xFF00#16 = page.setWidth 16 <<< 8)

/-- The bank offset of a BANK request is at or above BANK_SIZE (R202). -/
def offsetOutside (c : Cfg) (o : Addr) : Bool := decide (c.bankSize ≤ (o.toNat : Int))

end Sys2Proof.Machine
end

