-- ==== Sys2Proof/Machine/Label.lean ====
section
/-!
DEFINITION. The labeler (R170 to R180): a pure, total lookup from an address to a Label, its code and its text.
-/

namespace Sys2Proof.Machine

/-- The index of the first entry of NAMED_TABLE at exactly this address (R171). -/
def namedIndex? (c : Cfg) (a : Addr) : Option Nat := c.namedTable.findIdx? fun e => e.1 == a

/-- `label(a)` of R170, in the source's priority order. -/
def labelOf (c : Cfg) (a : Addr) : Label :=
  match namedIndex? c a with
  | some i => .named i
  | none =>
    if inRange c.wavStart c.wavEnd a then .wav
    else if maskMatches c.piaPage a then .winPia
    else if maskMatches c.fdcPage a then .winFdc
    else if maskMatches c.sndPage a then .winSnd
    else if !c.legacyPrecedenceBug && maskMatches Config.busfaultPage a then .busfault
    else .default

/-- The label code `(KIND[2:0], IDX)` (R77). -/
def Label.code : Label → BitVec 3 × Nat
  | .named i => (0, i)
  | .wav => (1, 0)
  | .winPia => (2, 0)
  | .winFdc => (3, 0)
  | .winSnd => (4, 0)
  | .busfault => (5, 0)
  | .default => (6, 0)

/-- The text of a label (R176). An entry that NAMED_TABLE does not have has no text; `labelOf` never gives one. -/
def Label.text (c : Cfg) : Label → Option String
  | .named i => c.namedTable[i]?.map Prod.snd
  | .wav => some Config.lblWav
  | .winPia => some c.lblPia
  | .winFdc => some c.lblFdc
  | .winSnd => some c.lblSnd
  | .busfault => some Config.lblBusfault
  | .default => some Config.lblDefault

end Sys2Proof.Machine
end

