-- ==== Sys2Proof/Machine/Memory.lean ====
section
/-!
DEFINITION. A storage array as a list of (index, byte) pairs in one canonical form, indexes strictly rising. An unlisted
index reads as none: a cell that nothing has written (R34), whose byte Machine/Ops.lean draws.
-/

namespace Sys2Proof.Machine

/-- The byte written last at an index, if any was. -/
def Memory.read? : Memory → Nat → Option Byte
  | [], _ => none
  | (k, v) :: rest, a => if k = a then some v else Memory.read? rest a

/-- One byte written: `array[a] <- v` (R10). No byte equals what an unlisted index reads as, so no write removes one. -/
def Memory.write : Memory → Nat → Byte → Memory
  | [], a, v => [(a, v)]
  | (k, w) :: rest, a, v =>
    if a < k then (a, v) :: (k, w) :: rest
    else if k = a then (k, v) :: rest
    else (k, w) :: Memory.write rest a v

/-- The canonical form: indexes strictly rising. -/
abbrev Memory.wf (m : Memory) : Prop := List.Pairwise (fun p q => p.1 < q.1) m

/-- Every listed index lies below a size (R24, R25: an array is indexed 0 to size - 1). -/
abbrev Memory.below (m : Memory) (size : Int) : Prop := ∀ p ∈ m, (p.1 : Int) < size

end Sys2Proof.Machine
end

