-- ==== Sys2Proof/Machine/Region.lean ====
section
/-!
DEFINITION. The decoder/mux (R100 to R110): the region of an address under a configuration, and its select code.
-/

namespace Sys2Proof.Machine

/-- `decode(a)` of R100: first match wins. -/
def regionOf (c : Cfg) (a : Addr) : Region :=
  if inRange c.romStart c.romEnd a then .rom
  else if inRange c.ramStart c.ramEnd a then .ram
  else if inRange c.wavStart c.wavEnd a then .wav
  else if inRange c.cartStart c.cartEnd a then .cart
  else if pageOf a = c.piaPage then .pia
  else if pageOf a = c.fdcPage then .fdc
  else if pageOf a = c.sndPage then .snd
  else if pageOf a = Config.fltPage then .flt
  else .openBus

/-- The region-select code `sel[3:0]` (R76). -/
def Region.code : Region → BitVec 4
  | .openBus => 0
  | .rom => 1
  | .ram => 2
  | .wav => 3
  | .cart => 4
  | .pia => 5
  | .fdc => 6
  | .snd => 7
  | .flt => 8

/-- The decoder/mux output, `sel = code(decode(a))` (R109). -/
def sel (c : Cfg) (a : Addr) : BitVec 4 := (regionOf c a).code

/-- The eight tests of R100, each with its region, in the order of the steps. -/
def regionTests (c : Cfg) (a : Addr) : List (Region × Bool) :=
  [(.rom, inRange c.romStart c.romEnd a), (.ram, inRange c.ramStart c.ramEnd a),
   (.wav, inRange c.wavStart c.wavEnd a), (.cart, inRange c.cartStart c.cartEnd a),
   (.pia, decide (pageOf a = c.piaPage)), (.fdc, decide (pageOf a = c.fdcPage)),
   (.snd, decide (pageOf a = c.sndPage)), (.flt, decide (pageOf a = Config.fltPage))]

end Sys2Proof.Machine
end

