-- ==== Sys2Proof/Machine/Ops.lean ====
section
/-!
DEFINITION. The shared operations: one update per field of the state, reading and writing the storage arrays, calling a
device model, the bank sample, the observation channel, and raising a fault (R10).
-/

namespace Sys2Proof.Machine

namespace State

/-- `return v` (R10, R75). -/
def answer (r : Response) (s : State) : State := { s with responses := s.responses ++ [r] }

/-- `Log(e)` (R10, R139). -/
def emit (e : LogEvent) (s : State) : State := { s with log := s.log ++ [e] }

/-- An event appended to the device-call history (R10). -/
def record (e : DevEvent) (s : State) : State := { s with history := s.history ++ [e] }

/-- `raise` (R10, R205): the one operation that sets the fault mark. The transaction has no other effect, and the block
has no vector, no saved state and no return (R211, R212). -/
def raise (r : FaultRecord) (s : State) : State := { s with fault := some r }

/-- PRG_RAM replaced. -/
def setRam (m : Memory) (s : State) : State := { s with ram := m }

/-- One bank of WAV_RAM replaced (R25). -/
def setBank (k : Bank) (m : Memory) (s : State) : State := { s with wav := s.wav.set k.toNat m k.isLt }

/-- One bank of WAV_RAM (R25). -/
def bank (k : Bank) (s : State) : Memory := s.wav[k.toNat]'k.isLt

/-- ROM loaded (R242, step 2). -/
def loadImage (s : State) : State := { s with rom := s.cfg.romImage, booted := true }

/-- The debug flag set by the host (R29). -/
def setDebug (b : Bool) (s : State) : State := { s with debug := b }

/-- `emergency` set to 1; nothing sets it back (R30, R207). -/
def enterEmergency (s : State) : State := { s with emergency := true }

/-- The pending requests replaced. -/
def setRequests (l : List Request) (s : State) : State := { s with requests := l }

/-- The listed answers of a device model, next first (R8). -/
def answersOf (d : Device) (s : State) : List Byte :=
  match d with
  | .pia => s.piaAnswers
  | .fdc => s.fdcAnswers

/-- The listed answers of a device model replaced. -/
def setAnswers (d : Device) (l : List Byte) (s : State) : State :=
  match d with
  | .pia => { s with piaAnswers := l }
  | .fdc => { s with fdcAnswers := l }

/-- One more device answer drawn. -/
def countDraw (s : State) : State := { s with draws := s.draws + 1 }

/-- `rom[o]` (R23). An index that no byte of ROM has (in no state a run reaches) reads as a free value. -/
def romRead (o : Nat) (s : State) : Byte := s.rom[o]?.getD (Config.startByte s.startup (.rom o))

/-- `ram[o]`: the byte written last, or the startup's draw for a cell nothing has written (R34, R60). -/
def ramRead (o : Nat) (s : State) : Byte := (s.ram.read? o).getD (Config.startByte s.startup (.ram o))

/-- `ram[o] <- v` (R24). -/
def ramWrite (o : Nat) (v : Byte) (s : State) : State := s.setRam (s.ram.write o v)

/-- `wav[k][o]`: the byte written last, or the startup's draw for a cell nothing has written (R34, R60). -/
def wavRead (k : Bank) (o : Nat) (s : State) : Byte :=
  ((s.bank k).read? o).getD (Config.startByte s.startup (.wav k o))

/-- `wav[k][o] <- v` (R25). -/
def wavWrite (k : Bank) (o : Nat) (v : Byte) (s : State) : State := s.setBank k ((s.bank k).write o v)

/-- What `readRegister(i)` on a device model answers now: the run's next listed answer, or a draw (R8). -/
def deviceAnswer (d : Device) (i : Byte) (s : State) : Byte :=
  match s.answersOf d with
  | v :: _ => v
  | [] => Config.deviceAnswer s.draws d i

/-- The listed answer is used up, or the draw is counted. -/
def takeAnswer (d : Device) (s : State) : State :=
  match s.answersOf d with
  | _ :: rest => s.setAnswers d rest
  | [] => s.countDraw

/-- `DevRead(d, i)`: one `readRegister(i)` call, its answer and its event (R10). -/
def devRead (d : Device) (i : Byte) (s : State) : Byte × State :=
  (s.deviceAnswer d i, (s.takeAnswer d).record (.devRd d i (s.deviceAnswer d i)))

/-- `DevWrite(d, i, v)`: one `writeRegister(i, v)` call and its event; the block keeps no copy (R10, R135). -/
def devWrite (d : Device) (i v : Byte) (s : State) : State := s.record (.devWr d i v)

/-- `sampleBank()` of R150: one `readRegister(0)` on the PIA model, bits 1:0 of its answer. -/
def sampleBank (s : State) : Bank × State :=
  (bankOf (s.devRead .pia 0x00#8).1, (s.devRead .pia 0x00#8).2)

/-- The annotation of a RAM access to an address with a known label (R140). -/
def annotate (a : Addr) (s : State) : State :=
  if regionOf s.cfg a = .ram ∧ labelOf s.cfg a ≠ .default then s.emit (.annotate a (labelOf s.cfg a)) else s

/-- The access line, emitted when `debug` is set (R139). -/
def logAccess (op : BusOp) (a : Addr) (v : Byte) (s : State) : State :=
  if s.debug then s.emit (.access op a (regionOf s.cfg a) v) else s

end State

/-- The fault code of the fault table (R204). -/
def FaultRecord.code : FaultRecord → Nat
  | .badOp _ => 1
  | .offsetFault _ _ => 2

/-- A reserved request word, after the checks of R206: BadOp(port, word), nothing read or written (R203).
DESIGN CHOICE (notes/assumptions/21.md): before ROM_IMAGE is loaded it is refused as a transaction is, and raises nothing;
R242 gates transactions and R79 says a reserved word is none. -/
def badOp (w : ReqWord) (s : State) : Host.Outcome State Fault Refusal :=
  transact false s fun s => .next (s.raise (.badOp w))

end Sys2Proof.Machine
end

