-- ==== Sys2Proof/Machine/BankStore.lean ====
section
/-!
DEFINITION. The meanings of BR and BW, the BANK port (R152 to R157). Neither samples the PIA model (R155).
-/

namespace Sys2Proof.Machine

/-- BR: answers `wav[k][o]`; an offset at or above BANK_SIZE raises OffsetFault (R152, R202). -/
def execBr (k : Bank) (o : Addr) (s : State) : Host.Outcome State Fault Refusal :=
  transact false s fun s =>
    if offsetOutside s.cfg o then .next (s.raise (.offsetFault k o))
    else .next (s.answer (.byte (s.wavRead k o.toNat)))

/-- BW: `wav[k][o] <- v`; an offset at or above BANK_SIZE raises OffsetFault and writes nothing (R153, R202). -/
def execBw (k : Bank) (o : Addr) (v : Byte) (s : State) : Host.Outcome State Fault Refusal :=
  transact false s fun s =>
    if offsetOutside s.cfg o then .next (s.raise (.offsetFault k o))
    else .next (s.wavWrite k o.toNat v)

end Sys2Proof.Machine
end

