-- ==== Sys2Proof/Machine/BusAccess.lean ====
section
/-!
DEFINITION. The meanings of RD and WR, the BUS port's accesses (R120 to R142). Both select their effect by one and the
same `regionOf` (R110).
-/

namespace Sys2Proof.Machine

/-- The case split of R120: the byte read and the state after it. -/
def busRead (a : Addr) (s : State) : Byte × State :=
  match regionOf s.cfg a with
  | .rom => (s.romRead (offsetFrom s.cfg.romStart a), s)
  | .ram => (s.ramRead (offsetFrom s.cfg.ramStart a), s)
  | .wav => (s.sampleBank.2.wavRead s.sampleBank.1 (offsetFrom s.cfg.wavStart a), s.sampleBank.2)
  | .cart => (Config.cartRd, s)
  | .pia => s.devRead .pia (indexOf a)
  | .fdc => s.devRead .fdc (indexOf a)
  | .snd => (Config.sndRd, s.emit (.sndRead (indexOf a)))
  | .flt => (Config.fltRd, s.emit (.fltRead (indexOf a)))
  | .openBus => (Config.openBus, s)

/-- The case split of R130. -/
def busWrite (a : Addr) (v : Byte) (s : State) : State :=
  match regionOf s.cfg a with
  | .rom => s
  | .ram => s.ramWrite (offsetFrom s.cfg.ramStart a) v
  | .wav => s.sampleBank.2.wavWrite s.sampleBank.1 (offsetFrom s.cfg.wavStart a) v
  | .cart => s
  | .pia => s.devWrite .pia (indexOf a) v
  | .fdc => s.devWrite .fdc (indexOf a) v
  | .snd => s.emit (.sndWrite (indexOf a) v)
  | .flt => s.emit (.fltWrite (indexOf a) v)
  | .openBus => s

/-- RD: the byte of R120, the annotation and the access line, the answer. -/
def execRd (a : Addr) (s : State) : Host.Outcome State Fault Refusal :=
  transact false s fun s =>
    .next ((((busRead a s).2.annotate a).logAccess .rd a (busRead a s).1).answer (.byte (busRead a s).1))

/-- WR: the effect of R130, the annotation and the access line; no answer. -/
def execWr (a : Addr) (v : Byte) (s : State) : Host.Outcome State Fault Refusal :=
  transact false s fun s => .next (((busWrite a v s).annotate a).logAccess .wr a v)

end Sys2Proof.Machine
end

