-- ==== Sys2Proof/Machine/NameLookup.lean ====
section
/-!
DEFINITION. The meaning of NM (R170).
-/

namespace Sys2Proof.Machine

/-- NM: answers `label(a)`; no state, no device call, and it still answers in emergency (R177, R208). -/
def execNm (a : Addr) (s : State) : Host.Outcome State Fault Refusal :=
  transact true s fun s => .next (s.answer (.label (labelOf s.cfg a)))

end Sys2Proof.Machine
end

