-- ==== Sys2Proof/Machine/Dispatch.lean ====
section
/-!
DEFINITION. The dispatch: one arm per transaction.
-/

namespace Sys2Proof.Machine

def exec (i : Instr) (s : State) : Host.Outcome State Fault Refusal :=
  match i with
  | .rd a => Sys2Proof.Machine.execRd a s
  | .wr a v => Sys2Proof.Machine.execWr a v s
  | .nm a => Sys2Proof.Machine.execNm a s
  | .br k o => Sys2Proof.Machine.execBr k o s
  | .bw k o v => Sys2Proof.Machine.execBw k o v s

end Sys2Proof.Machine
end

