-- ==== Sys2Proof/WellFormed.lean ====
section
/-!
DEFINITION. The checks: well-formedness of a configuration, WF(Cfg), clause by clause (R46), and the assembler's
operand ranges (R82), where a number out of its field's range is refused before it becomes an instruction.
-/

namespace Sys2Proof

namespace Cfg

/-- R46 (a). -/
def wfBounds (c : Cfg) : Bool :=
  decide (c.romStart ≤ c.romEnd) && decide (c.ramStart ≤ c.ramEnd) && decide (c.wavStart ≤ c.wavEnd)

/-- R46 (b): CART_START <= CART_END, or the CART range is empty by R43. Nothing fails this clause. -/
def wfCart (c : Cfg) : Bool :=
  decide (c.cartStart ≤ c.cartEnd) || decide (c.cartEnd < c.cartStart)

/-- The eight address ranges of R46 (c), each by its inclusive bounds. -/
def ranges (c : Cfg) : List (Nat × Nat) :=
  [(c.romStart.toNat, c.romEnd.toNat), (c.ramStart.toNat, c.ramEnd.toNat),
   (c.wavStart.toNat, c.wavEnd.toNat), (c.cartStart.toNat, c.cartEnd.toNat)] ++
  [c.piaPage, c.fdcPage, c.sndPage, Config.fltPage].map fun p => (p.toNat * 256, p.toNat * 256 + 255)

/-- Two inclusive ranges share no address; a range whose lower bound is above its upper bound has none (R43). -/
def disjoint (p q : Nat × Nat) : Bool :=
  decide (p.2 < q.1) || decide (q.2 < p.1) || decide (p.2 < p.1) || decide (q.2 < q.1)

/-- R46 (c): the eight ranges are pairwise disjoint. -/
def wfDisjoint (c : Cfg) : Bool :=
  decide (c.ranges.Pairwise fun p q => disjoint p q = true)

/-- R46 (d): the four window pages are pairwise distinct. -/
def wfPages (c : Cfg) : Bool :=
  decide ([c.piaPage, c.fdcPage, c.sndPage, Config.fltPage].Pairwise (· ≠ ·))

/-- R46 (e): ROM_IMAGE has exactly ROM_SIZE bytes. -/
def wfImage (c : Cfg) : Bool :=
  decide ((c.romImage.length : Int) = c.romSize)

/-- R46: WF(Cfg). -/
def wf (c : Cfg) : Bool :=
  c.wfBounds && c.wfCart && c.wfDisjoint && c.wfPages && c.wfImage

end Cfg

/-- One line of the assembler (R82), its operands still plain numbers. -/
inductive AsmLine where
  | rd (a : Nat)
  | wr (a d : Nat)
  | nm (a : Nat)
  | br (k o : Nat)
  | bw (k o d : Nat)
deriving DecidableEq, Repr

namespace AsmLine

/-- R82: addr16 and offset16 at most 0xFFFF, data8 at most 0xFF, bank2 at most 3. -/
def wf : AsmLine → Bool
  | rd a => decide (a ≤ 0xFFFF)
  | wr a d => decide (a ≤ 0xFFFF) && decide (d ≤ 0xFF)
  | nm a => decide (a ≤ 0xFFFF)
  | br k o => decide (k ≤ 3) && decide (o ≤ 0xFFFF)
  | bw k o d => decide (k ≤ 3) && decide (o ≤ 0xFFFF) && decide (d ≤ 0xFF)

/-- The instruction of a line whose operands are in range; none is R82's assembly error. -/
def toInstr? (l : AsmLine) : Option Instr :=
  if l.wf then
    some <| match l with
      | rd a => .rd (BitVec.ofNat 16 a)
      | wr a d => .wr (BitVec.ofNat 16 a) (BitVec.ofNat 8 d)
      | nm a => .nm (BitVec.ofNat 16 a)
      | br k o => .br (BitVec.ofNat 2 k) (BitVec.ofNat 16 o)
      | bw k o d => .bw (BitVec.ofNat 2 k) (BitVec.ofNat 16 o) (BitVec.ofNat 8 d)
  else none

end AsmLine

end Sys2Proof
end

