-- ==== Sys2Proof/Machine/HostActions.lean ====
section
/-!
DEFINITION. What one request of the host does: a request word on a port is decoded and run, and the host's own acts
change what the spec lets them change (R29, R52, R207, R209, R216, R242).
-/

namespace Sys2Proof.Machine

/-- A request word: decoded by its port's format, a reserved code raises BadOp (R79, R206). -/
def execWord (w : ReqWord) (s : State) : Host.Outcome State Fault Refusal :=
  match decode w with
  | .ok i => exec i s
  | .error _ => badOp w s

/-- Boot, step 2 (R242): ROM_IMAGE is loaded once, and only with exactly ROM_SIZE bytes. -/
def loadRom (s : State) : Host.Outcome State Fault Refusal :=
  if s.booted then .refused .romAlreadyLoaded
  else if s.cfg.wfImage then .next s.loadImage
  else .refused .romImageSize

/-- `n` RD request words from address `a` on, modulo 2^16. -/
def stackReads : Nat → Addr → List Request
  | 0, _ => []
  | n + 1, a => .word (encode (.rd a)) :: stackReads n (a + 1#16)

/-- How many bytes one fault report reads: 16, or 17 where the free value says so (R209, N22). -/
def stackReadCount : Nat := if Config.stackWalkReadsSeventeenth then 17 else 16

/-- `reportFault` (R209): its ordinary RD transactions come next, then `setEmergency`, then whatever was pending. -/
def reportFault (sp : Addr) (s : State) : State :=
  s.setRequests (stackReads stackReadCount sp ++ .setEmergency :: s.requests)

/-- A trace hook: resolves the destination through `label` and emits a line when `debug` is set (R216). -/
def traceHook (h : Hook) (dest : Addr) (s : State) : State :=
  if s.debug then s.emit (.trace h dest (labelOf s.cfg dest)) else s

/-- What one request does. The host's acts are no transactions, so neither the fault mark nor the emergency mode holds
them up (DEDUCED, notes/assumptions/7.md). -/
def perform (r : Request) (s : State) : Host.Outcome State Fault Refusal :=
  match r with
  | .word w => execWord w s
  | .memRead a n => if n = 1 then exec (.rd a) s else .refused (.accessWidth n)
  | .memWrite a n v => if n = 1 then exec (.wr a v) s else .refused (.accessWidth n)
  | .loadRom => loadRom s
  | .setDebug b => .next (s.setDebug b)
  | .reportFault sp => .next (reportFault sp s)
  | .setEmergency => .next s.enterEmergency
  | .traceHook h dest => .next (traceHook h dest s)

end Sys2Proof.Machine
end

