-- ==== Sys2Proof/Machine/Step.lean ====
section
/-!
DEFINITION. One step: the next pending request is taken and performed (R5, R55). The block fetches nothing itself: it
has no program counter (R21), and the host issues every transaction (R12).
-/

namespace Sys2Proof.Machine

/-- One step of the block. -/
def step (s : State) : Host.Outcome State Fault Refusal :=
  match s.requests with
  | [] => idle s
  | r :: rest => perform r (s.setRequests rest)

/-- The state in which the host's next request is the word that a number of the opcode table stands for. -/
def State.withFetchWord (s : State) (nbits w : Nat) : State :=
  match tableWord nbits w with
  | some r => s.setRequests (.word r :: s.requests)
  | none => s

end Sys2Proof.Machine
end

