-- ==== Sys2Proof/Machine/Assembler.lean ====
section
/-!
DEFINITION. The assembler's syntax (R82) over lists of characters: one transaction per line, numbers hexadecimal with
`0x` or decimal, `;` starts a comment. The harness directives have no encoding and are not read here.
-/

namespace Sys2Proof.Machine

/-- The value of a digit in a base, if the character is one. -/
def digit? (base : Nat) (c : Char) : Option Nat :=
  let n := c.toNat
  let v := if 48 ≤ n ∧ n ≤ 57 then n - 48 else if 97 ≤ n ∧ n ≤ 102 then n - 87
    else if 65 ≤ n ∧ n ≤ 70 then n - 55 else base
  if v < base then some v else none

/-- Digits read on from a value. -/
def digits? (base : Nat) : Nat → List Char → Option Nat
  | n, [] => some n
  | n, c :: cs =>
    match digit? base c with
    | some v => digits? base (n * base + v) cs
    | none => none

/-- A number: `0x` and hexadecimal digits, or decimal digits; at least one digit. -/
def number? : List Char → Option Nat
  | [] => none
  | '0' :: 'x' :: c :: cs => digits? 16 0 (c :: cs)
  | c :: cs => digits? 10 0 (c :: cs)

/-- White space of a line. -/
def isBlank (c : Char) : Bool := c = ' ' || c = '\t'

/-- Blanks removed at both ends. -/
def trimBlanks (cs : List Char) : List Char :=
  ((cs.dropWhile isBlank).reverse.dropWhile isBlank).reverse

/-- The operands of a line, separated by commas; none where one is no number. -/
def operands? (cs : List Char) : Option (List Nat) :=
  (cs.splitOn ',').mapM fun f => number? (trimBlanks f)

/-- One line of text read as a transaction with its operands (R82). -/
def parseLine? (line : List Char) : Option AsmLine :=
  let text := trimBlanks (line.takeWhile (· ≠ ';'))
  let mnemonic := text.takeWhile fun c => !isBlank c
  match operands? (text.dropWhile fun c => !isBlank c) with
  | some [a] =>
    if mnemonic = ['R', 'D'] then some (.rd a)
    else if mnemonic = ['N', 'M'] then some (.nm a) else none
  | some [a, b] =>
    if mnemonic = ['W', 'R'] then some (.wr a b)
    else if mnemonic = ['B', 'R'] then some (.br a b) else none
  | some [a, b, d] => if mnemonic = ['B', 'W'] then some (.bw a b d) else none
  | _ => none

/-- The request word of a line; none is an assembly error (R82). -/
def assemble? (line : List Char) : Option ReqWord :=
  ((parseLine? line).bind AsmLine.toInstr?).map encode

end Sys2Proof.Machine
end

