-- ==== Sys2Proof/Safety.lean ====
section
/-!
DEFINITION. The terms of the claims: when a transaction has a step, the invariant of the state, and what two states
share.
-/

namespace Sys2Proof.Machine

/-- RD, WR, BR and BW have their step: ROM is loaded, no fault is marked, the mode is normal (R205, R208, R242). -/
def State.Ready (s : State) : Prop := s.booted = true ∧ s.fault = none ∧ s.emergency = false

/-- NM has its step: ROM is loaded and no fault is marked; the mode does not matter (R205, R208, R242). -/
def State.Names (s : State) : Prop := s.booted = true ∧ s.fault = none

/-- A fault record says what the fault table says (R204): BadOp of a reserved word, OffsetFault of an offset at or above
BANK_SIZE. -/
def FaultRecord.Legal (c : Cfg) : FaultRecord → Prop
  | .badOp w => ∃ e, decode w = .error e
  | .offsetFault _ o => c.bankSize ≤ (o.toNat : Int)

/-- The invariant: the storage arrays are in canonical form and inside their sizes (R24, R25), a loaded ROM holds
ROM_IMAGE with exactly ROM_SIZE bytes (R23, R242), and a marked fault is one of the table (R204). -/
structure State.Inv (s : State) : Prop where
  ramWf : s.ram.wf
  ramBelow : s.ram.below s.cfg.ramSize
  wavWf : ∀ k, (s.bank k).wf
  wavBelow : ∀ k, (s.bank k).below s.cfg.bankSize
  romLoaded : s.booted = true → s.rom = s.cfg.romImage ∧ (s.rom.length : Int) = s.cfg.romSize
  faultLegal : ∀ r, s.fault = some r → r.Legal s.cfg

/-- `t` holds in every storage cell what `s` holds, read byte by byte. -/
def State.SameStorage (s t : State) : Prop :=
  (∀ o, t.romRead o = s.romRead o) ∧ (∀ o, t.ramRead o = s.ramRead o) ∧ ∀ k o, t.wavRead k o = s.wavRead k o

/-- `t` has the configuration, the modes, the fault mark and the pending requests of `s`. -/
def State.SameModes (s t : State) : Prop :=
  t.cfg = s.cfg ∧ t.booted = s.booted ∧ t.debug = s.debug ∧ t.emergency = s.emergency ∧ t.fault = s.fault ∧
  t.requests = s.requests

/-- `t` has called no device model since `s`: the history and what the models will answer are those of `s`. -/
def State.SameDevices (s t : State) : Prop :=
  t.history = s.history ∧ t.piaAnswers = s.piaAnswers ∧ t.fdcAnswers = s.fdcAnswers ∧ t.draws = s.draws

/-- Since `s`, `t` has made exactly one call `DevRead(d, i)`: its event holds the answer, the listed answer is used up or
one draw is counted, and the other model's answers are untouched (R10). -/
def State.OneDevRead (d : Device) (i : Byte) (s t : State) : Prop :=
  t.history = s.history ++ [.devRd d i (s.deviceAnswer d i)] ∧ t.answersOf d = (s.answersOf d).tail ∧
  (∀ e, e ≠ d → t.answersOf e = s.answersOf e) ∧
  t.draws = s.draws + if s.answersOf d = [] then 1 else 0

/-- Since `s`, `t` has made exactly one call `DevWrite(d, i, v)`. -/
def State.OneDevWrite (d : Device) (i v : Byte) (s t : State) : Prop :=
  t.history = s.history ++ [.devWr d i v] ∧ t.piaAnswers = s.piaAnswers ∧ t.fdcAnswers = s.fdcAnswers ∧
  t.draws = s.draws

/-- `s` with its observation channel emptied and its debug flag cleared: what R139 says cannot matter is left out. -/
def State.unobserved (s : State) : State := { s with log := [], debug := false }

/-- Two outcomes agree in all but the observation channel and the debug flag. -/
def OutcomesAgree (x y : Host.Outcome State Fault Refusal) : Prop :=
  match x, y with
  | .next s, .next t => s.unobserved = t.unobserved
  | .fault r, .fault q => r = q
  | .refused r, .refused q => r = q
  | _, _ => False

end Sys2Proof.Machine
end

