-- ==== Sys2Proof/Certificates/Slice0/Obligations.lean ====
section
/-!
DEFINITION. The statements for the provers, in the order of OBLIGATIONS.json: encoding, the decoder/mux, RD, WR, the
BANK port, the labeler, faults and modes, the host's acts, reset, and the whole machine.
-/

open Sys2Proof Sys2Proof.Machine

/-! ### Encoding -/

/-- R71, R72, R74, R82: every instruction's word decodes to that instruction, on its own port, with every operand. -/
def Obligations.DecodeEncodeRoundTrip : Prop :=
  ∀ i : Instr, decode (encode i) = .ok i

/-- R71, R72: a BUS word assembled by the rule's own formula `(OP << 24) | (ADDR << 8) | DATA`. -/
def Obligations.BusWordFields : Prop :=
  ∀ (op : BitVec 2) (a : Addr) (d : Byte),
    decode (.bus ((op.setWidth 26 <<< 24) ||| (a.setWidth 26 <<< 8) ||| d.setWidth 26)) =
      if op = 0b00#2 then .ok (.rd a) else if op = 0b01#2 then .ok (.wr a d)
      else if op = 0b10#2 then .ok (.nm a) else .error .busOp

/-- R74: a BANK word assembled by the rule's own formula `(OP2 << 26) | (BANK << 24) | (OFFSET << 8) | DATA`; BR ignores
DATA and an assembler writes 0x00 there. -/
def Obligations.BankWordFields : Prop :=
  (∀ (op2 : BitVec 2) (k : Bank) (o : Addr) (d : Byte),
    decode (.bank ((op2.setWidth 28 <<< 26) ||| (k.setWidth 28 <<< 24) ||| (o.setWidth 28 <<< 8) ||| d.setWidth 28)) =
      if op2 = 0b00#2 then .ok (.br k o) else if op2 = 0b01#2 then .ok (.bw k o d) else .error .bankOp2) ∧
  ∀ (k : Bank) (o : Addr), encode (.br k o) = .bank ((k.setWidth 28 <<< 24) ||| (o.setWidth 28 <<< 8))

/-- R73: DATA is the byte WR writes; RD and NM are the same transaction for every DATA; the assembler writes 0x00. -/
def Obligations.DataFieldUse : Prop :=
  ∀ (a : Addr) (d : Byte),
    decode (.bus (busWord 0b00#2 a d)) = .ok (.rd a) ∧ decode (.bus (busWord 0b10#2 a d)) = .ok (.nm a) ∧
    decode (.bus (busWord 0b01#2 a d)) = .ok (.wr a d) ∧
    encode (.rd a) = .bus (busWord 0b00#2 a 0x00#8) ∧ encode (.nm a) = .bus (busWord 0b10#2 a 0x00#8)

/-- R71 to R74, the other direction: the word that decodes to an instruction is the instruction's word, up to the DATA
bits that RD, NM and BR ignore. -/
def Obligations.DecodedWordReencodes : Prop :=
  ∀ (w : ReqWord) (i : Instr), decode w = .ok i →
    encode i = match w with
      | .bus v => .bus (if busOpField v = 0b01#2 then v else v &&& 0x3FFFF00#26)
      | .bank v => .bank (if bankOpField v = 0b01#2 then v else v &&& 0xFFFFF00#28)

/-- 95_test_vectors.md L2.8: the six words it takes apart. -/
def Obligations.DecodesWrittenWords : Prop :=
  decode (.bus 0x1E2039C#26) = .ok (.wr 0xE203#16 0x9C#8) ∧
  decode (.bus 0x0FFFF00#26) = .ok (.rd 0xFFFF#16) ∧
  decode (.bus 0x2E205AB#26) = .ok (.nm 0xE205#16) ∧
  decode (.bank 0x73EFF01#28) = .ok (.bw 3#2 0x3EFF#16 0x01#8) ∧
  decode (.bank 0x1FFFF00#28) = .ok (.br 1#2 0xFFFF#16) ∧
  decode (.bank 0xC3F0000#28) = .error .bankOp2

/-- R82: an operand in its field's range is carried whole, and one out of its range is an assembly error. -/
def Obligations.AssemblerRanges : Prop :=
  (∀ a, (AsmLine.rd a).toInstr? = none ↔ 0xFFFF < a) ∧
  (∀ a, (AsmLine.nm a).toInstr? = none ↔ 0xFFFF < a) ∧
  (∀ a d, (AsmLine.wr a d).toInstr? = none ↔ 0xFFFF < a ∨ 0xFF < d) ∧
  (∀ k o, (AsmLine.br k o).toInstr? = none ↔ 3 < k ∨ 0xFFFF < o) ∧
  (∀ k o d, (AsmLine.bw k o d).toInstr? = none ↔ 3 < k ∨ 0xFFFF < o ∨ 0xFF < d) ∧
  (∀ (a : Addr), (AsmLine.rd a.toNat).toInstr? = some (.rd a) ∧ (AsmLine.nm a.toNat).toInstr? = some (.nm a)) ∧
  (∀ (a : Addr) (d : Byte), (AsmLine.wr a.toNat d.toNat).toInstr? = some (.wr a d)) ∧
  (∀ (k : Bank) (o : Addr), (AsmLine.br k.toNat o.toNat).toInstr? = some (.br k o)) ∧
  ∀ (k : Bank) (o : Addr) (d : Byte), (AsmLine.bw k.toNat o.toNat d.toNat).toInstr? = some (.bw k o d)

/-! ### One step -/

/-- R5, R55, R70: the request word that the host presents next is decoded by its port's format, and the step is the
instruction's own effect, with the request taken. -/
def Obligations.StepRunsDecodedRequest : Prop :=
  ∀ (s : State) (w : ReqWord) (rest : List Request) (i : Instr),
    s.requests = .word w :: rest → decode w = .ok i → step s = exec i { s with requests := rest }

/-- The model's own (notes/assumptions/6.md, DEDUCED): with no request pending the block stays as it is, and one whose
fault mark is set is stuck. -/
def Obligations.WaitsForRequests : Prop :=
  ∀ s : State, s.requests = [] →
    (s.fault = none → step s = .next s) ∧ ∀ r, s.fault = some r → step s = .fault (.stuckFaulted r)

/-- R10, R52: an access of one byte is RD or WR, and any other width is refused. That the refusal comes in every state, a
faulted, an emergency and an unbooted one included, and so before the checks of R206, is the model's own
(notes/assumptions/17.md, DEDUCED). -/
def Obligations.OnlyOneByteAccesses : Prop :=
  ∀ (s : State) (a : Addr) (n : Nat) (v : Byte) (rest : List Request),
    (s.requests = .memRead a n :: rest →
      step s = if n = 1 then exec (.rd a) { s with requests := rest } else .refused (.accessWidth n)) ∧
    (s.requests = .memWrite a n v :: rest →
      step s = if n = 1 then exec (.wr a v) { s with requests := rest } else .refused (.accessWidth n))

/-! ### The decoder/mux -/

/-- R101, R103: the tests of R100 in its order, both bounds included and compared unsigned; the first that holds decides,
for every configuration. -/
def Obligations.FirstMatchingRegionWins : Prop :=
  ∀ (c : Cfg) (a : Addr),
    let tests : List (Region × Bool) :=
      [(.rom, decide (c.romStart.toNat ≤ a.toNat ∧ a.toNat ≤ c.romEnd.toNat)),
       (.ram, decide (c.ramStart.toNat ≤ a.toNat ∧ a.toNat ≤ c.ramEnd.toNat)),
       (.wav, decide (c.wavStart.toNat ≤ a.toNat ∧ a.toNat ≤ c.wavEnd.toNat)),
       (.cart, decide (c.cartStart.toNat ≤ a.toNat ∧ a.toNat ≤ c.cartEnd.toNat)),
       (.pia, decide (a.toNat / 256 = c.piaPage.toNat)), (.fdc, decide (a.toNat / 256 = c.fdcPage.toNat)),
       (.snd, decide (a.toNat / 256 = c.sndPage.toNat)), (.flt, decide (a.toNat / 256 = 0xE4))]
    (∀ (n : Nat) (r : Region), tests[n]? = some (r, true) →
      (∀ (m : Nat) (q : Region × Bool), m < n → tests[m]? = some q → q.2 = false) → regionOf c a = r) ∧
    ((∀ q : Region × Bool, q ∈ tests → q.2 = false) → regionOf c a = .openBus)

/-- R108 (the spec's own derivation): under WF(Cfg) an address satisfies at most one of the eight tests, and the region
does not depend on their order. -/
def Obligations.RegionsExclusiveWhenWellFormed : Prop :=
  ∀ (c : Cfg) (a : Addr), c.wf = true →
    (regionTests c a).countP (fun q => q.2) ≤ 1 ∧
    ∀ l, List.Perm l (regionTests c a) → ((l.find? fun q => q.2).map Prod.fst).getD .openBus = regionOf c a

/-- R102: the mask-compare, the compare of the top byte and membership in the 256 addresses of the page are the same
test. -/
def Obligations.MaskCompareIsTopByte : Prop :=
  ∀ (page : Byte) (a : Addr),
    (a &&& 0xFF00#16 = page.setWidth 16 <<< 8 ↔ pageOf a = page) ∧
    (pageOf a = page ↔
      page.setWidth 16 <<< 8 ≤ a ∧ a ≤ (page.setWidth 16 <<< 8 ||| 0xFF#16))

/-- R104: a range whose START is above its END matches no address. -/
def Obligations.EmptyRangeMatchesNothing : Prop :=
  ∀ (c : Cfg) (a : Addr),
    (∀ lo hi : Addr, hi < lo → inRange lo hi a = false) ∧
    (c.romEnd < c.romStart → regionOf c a ≠ .rom) ∧ (c.ramEnd < c.ramStart → regionOf c a ≠ .ram) ∧
    (c.wavEnd < c.wavStart → regionOf c a ≠ .wav) ∧ (c.cartEnd < c.cartStart → regionOf c a ≠ .cart)

/-- R105: an address of page 0xE1 that no test of R100 matches is OPEN, so it reads 0xFF and discards writes. -/
def Obligations.SerialPageIsOpen : Prop :=
  ∀ (c : Cfg) (a : Addr), pageOf a = 0xE1#8 →
    inRange c.romStart c.romEnd a = false → inRange c.ramStart c.ramEnd a = false →
    inRange c.wavStart c.wavEnd a = false → inRange c.cartStart c.cartEnd a = false →
    c.piaPage ≠ 0xE1#8 → c.fdcPage ≠ 0xE1#8 → c.sndPage ≠ 0xE1#8 → regionOf c a = .openBus

/-- R76, R109: the select code of every region, and no code above 8. -/
def Obligations.SelectCodes : Prop :=
  (∀ c a, sel c a = (regionOf c a).code) ∧ (∀ r : Region, r.code.toNat ≤ 8) ∧
  Region.openBus.code = 0#4 ∧ Region.rom.code = 1#4 ∧ Region.ram.code = 2#4 ∧ Region.wav.code = 3#4 ∧
  Region.cart.code = 4#4 ∧ Region.pia.code = 5#4 ∧ Region.fdc.code = 6#4 ∧ Region.snd.code = 7#4 ∧
  Region.flt.code = 8#4

/-- R49, R50 (the spec's own derivations): the resolved maps of CFG_REF and of CFG_S89, row by row; the rows of each
table together are all 65,536 addresses. Under CFG_S89 ROM shadows every device page. -/
def Obligations.ResolvedMaps : Prop :=
  (∀ (a : Addr) (row : Nat × Nat × Region),
    row ∈ ([(0x0000, 0x7FFF, .ram), (0x8000, 0xBEFF, .wav), (0xBF00, 0xBFFF, .openBus), (0xC000, 0xDFFF, .cart),
      (0xE000, 0xE1FF, .openBus), (0xE200, 0xE2FF, .pia), (0xE300, 0xE3FF, .openBus), (0xE400, 0xE4FF, .flt),
      (0xE500, 0xE7FF, .openBus), (0xE800, 0xE8FF, .fdc), (0xE900, 0xEBFF, .openBus), (0xEC00, 0xECFF, .snd),
      (0xED00, 0xEFFF, .openBus), (0xF000, 0xFFFF, .rom)] : List (Nat × Nat × Region)) →
    row.1 ≤ a.toNat → a.toNat ≤ row.2.1 → regionOf Config.cfgRef a = row.2.2) ∧
  ∀ (a : Addr) (row : Nat × Nat × Region),
    row ∈ ([(0x0000, 0x7FFF, .ram), (0x8000, 0xBEFF, .wav), (0xBF00, 0xBFFF, .openBus),
      (0xC000, 0xFFFF, .rom)] : List (Nat × Nat × Region)) →
    row.1 ≤ a.toNat → a.toNat ≤ row.2.1 → regionOf Config.cfgS89 a = row.2.2

/-- R46, R47, R48: CFG_REF is well-formed, and CFG_S89 fails clause (c) and no other. -/
def Obligations.NamedConfigurationsWellFormedness : Prop :=
  Config.cfgRef.wf = true ∧ Config.cfgS89.wf = false ∧ Config.cfgS89.wfDisjoint = false ∧
  Config.cfgS89.wfBounds = true ∧ Config.cfgS89.wfCart = true ∧ Config.cfgS89.wfPages = true ∧
  Config.cfgS89.wfImage = true

/-! ### RD -/

/-- R121, R122: RD of a ROM or RAM address answers the array's byte at the address's offset and changes no storage, no
mode and no device. -/
def Obligations.RdAnswersRomAndRam : Prop :=
  ∀ (s : State) (a : Addr), s.Ready →
    (regionOf s.cfg a = .rom → ∃ t, exec (.rd a) s = .next t ∧
      t.responses = s.responses ++ [.byte (s.romRead (a - s.cfg.romStart).toNat)] ∧
      s.SameStorage t ∧ s.SameModes t ∧ s.SameDevices t) ∧
    (regionOf s.cfg a = .ram → ∃ t, exec (.rd a) s = .next t ∧
      t.responses = s.responses ++ [.byte (s.ramRead (a - s.cfg.ramStart).toNat)] ∧
      s.SameStorage t ∧ s.SameModes t ∧ s.SameDevices t)

/-- R23, R121: in a state of the invariant the byte that RD answers for a ROM address is the byte of ROM_IMAGE at its
offset: no ROM address lies outside the image. -/
def Obligations.RomAddressesReadTheImage : Prop :=
  ∀ (s : State) (a : Addr), s.Inv → s.Ready → regionOf s.cfg a = .rom →
    ∃ v t, s.cfg.romImage[(a - s.cfg.romStart).toNat]? = some v ∧ exec (.rd a) s = .next t ∧
      t.responses = s.responses ++ [.byte v]

/-- R123, R150: RD of a WAV address samples the bank with one `DevRead(PIA, 0x00)`, keeps bits 1:0 of its answer and answers
that bank's byte, at an offset below BANK_SIZE. -/
def Obligations.RdAnswersSampledBank : Prop :=
  ∀ (s : State) (a : Addr), s.Ready → regionOf s.cfg a = .wav →
    ((a - s.cfg.wavStart).toNat : Int) < s.cfg.bankSize ∧
    ∃ t, exec (.rd a) s = .next t ∧
      t.responses = s.responses ++
        [.byte (s.wavRead ((s.deviceAnswer .pia 0x00#8).extractLsb' 0 2) (a - s.cfg.wavStart).toNat)] ∧
      s.OneDevRead .pia 0x00#8 t ∧ s.SameStorage t ∧ s.SameModes t

/-- R124, R126, R127, R128: CART, sound-chip, filter and unmapped addresses read 0xFF with no storage and no device
touched; the two windows log the register index. -/
def Obligations.RdFixedValueRegions : Prop :=
  ∀ (s : State) (a : Addr), s.Ready →
    (regionOf s.cfg a = .cart ∨ regionOf s.cfg a = .snd ∨ regionOf s.cfg a = .flt ∨ regionOf s.cfg a = .openBus) →
    ∃ t, exec (.rd a) s = .next t ∧ t.responses = s.responses ++ [.byte 0xFF#8] ∧
      s.SameStorage t ∧ s.SameModes t ∧ s.SameDevices t ∧
      (regionOf s.cfg a = .snd → (s.log ++ [.sndRead (a.extractLsb' 0 8)]) <+: t.log) ∧
      (regionOf s.cfg a = .flt → (s.log ++ [.fltRead (a.extractLsb' 0 8)]) <+: t.log)

/-- R125: RD of a PIA or FDC address is one `readRegister(a[7:0])` on that model, its answer returned unchanged. -/
def Obligations.RdForwardsToDevice : Prop :=
  ∀ (s : State) (a : Addr) (d : Device), s.Ready →
    (regionOf s.cfg a = .pia ∧ d = .pia ∨ regionOf s.cfg a = .fdc ∧ d = .fdc) →
    ∃ t, exec (.rd a) s = .next t ∧
      t.responses = s.responses ++ [.byte (s.deviceAnswer d (a.extractLsb' 0 8))] ∧
      s.OneDevRead d (a.extractLsb' 0 8) t ∧ s.SameStorage t ∧ s.SameModes t

/-- R58 (the spec's own derivation): two back-to-back RD of one address answer the same byte, for WAV when the PIA
answers the same bank both times. -/
def Obligations.RepeatedReadsAgree : Prop :=
  ∀ (s : State) (a : Addr), s.Ready → regionOf s.cfg a ≠ .pia → regionOf s.cfg a ≠ .fdc →
    ∃ t v, exec (.rd a) s = .next t ∧ t.responses = s.responses ++ [.byte v] ∧
      ((regionOf s.cfg a = .wav →
          (t.deviceAnswer .pia 0x00#8).extractLsb' 0 2 = (s.deviceAnswer .pia 0x00#8).extractLsb' 0 2) →
        ∃ u, exec (.rd a) t = .next u ∧ u.responses = t.responses ++ [.byte v])

/-! ### WR -/

/-- R134, R136, R137, R138 (and R131): a write to ROM, CART, the sound-chip or filter window or an unmapped address changes
nothing but the observation channel, where the two windows log index and value. -/
def Obligations.WrWithoutStorageChangesNothing : Prop :=
  ∀ (s : State) (a : Addr) (v : Byte), s.Ready →
    (regionOf s.cfg a = .rom ∨ regionOf s.cfg a = .cart ∨ regionOf s.cfg a = .snd ∨ regionOf s.cfg a = .flt ∨
      regionOf s.cfg a = .openBus) →
    ∃ l, exec (.wr a v) s = .next { s with log := s.log ++ l } ∧
      (regionOf s.cfg a = .snd → [.sndWrite (a.extractLsb' 0 8) v] <+: l) ∧
      (regionOf s.cfg a = .flt → [.fltWrite (a.extractLsb' 0 8) v] <+: l)

/-- R132: WR to a RAM address writes that cell, and the next RD of the address answers the byte (property 3); every other
cell of RAM, ROM and WAV, every mode, the device models and the responses are as before. -/
def Obligations.WrWritesRam : Prop :=
  ∀ (s : State) (a : Addr) (v : Byte), s.Ready → regionOf s.cfg a = .ram →
    ∃ t u, exec (.wr a v) s = .next t ∧
      (∀ o, t.ramRead o = if o = (a - s.cfg.ramStart).toNat then v else s.ramRead o) ∧
      (∀ o, t.romRead o = s.romRead o) ∧ (∀ k o, t.wavRead k o = s.wavRead k o) ∧
      s.SameModes t ∧ s.SameDevices t ∧ t.responses = s.responses ∧
      exec (.rd a) t = .next u ∧ u.responses = s.responses ++ [.byte v]

/-- R133: WR to a WAV address samples the bank with one `DevRead(PIA, 0x00)` and then writes that bank's cell, at an
offset below BANK_SIZE; every other cell of every array is as before. -/
def Obligations.WrWritesSampledBank : Prop :=
  ∀ (s : State) (a : Addr) (v : Byte), s.Ready → regionOf s.cfg a = .wav →
    ((a - s.cfg.wavStart).toNat : Int) < s.cfg.bankSize ∧
    ∃ t, exec (.wr a v) s = .next t ∧
      (∀ k o, t.wavRead k o =
        if k = (s.deviceAnswer .pia 0x00#8).extractLsb' 0 2 ∧ o = (a - s.cfg.wavStart).toNat then v
        else s.wavRead k o) ∧
      (∀ o, t.romRead o = s.romRead o) ∧ (∀ o, t.ramRead o = s.ramRead o) ∧
      s.OneDevRead .pia 0x00#8 t ∧ s.SameModes t ∧ t.responses = s.responses

/-- R135: WR to a PIA or FDC address is one `writeRegister(a[7:0], v)` on that model, and the block keeps no copy. -/
def Obligations.WrForwardsToDevice : Prop :=
  ∀ (s : State) (a : Addr) (v : Byte) (d : Device), s.Ready →
    (regionOf s.cfg a = .pia ∧ d = .pia ∨ regionOf s.cfg a = .fdc ∧ d = .fdc) →
    ∃ t, exec (.wr a v) s = .next t ∧ s.OneDevWrite d (a.extractLsb' 0 8) v t ∧ s.SameStorage t ∧ s.SameModes t ∧
      t.responses = s.responses

/-- R131: a write to a ROM address changes nothing but the observation channel, and a read of any ROM address after it
answers what it answered before (property 5). -/
def Obligations.RomIgnoresWrites : Prop :=
  ∀ (s : State) (a b : Addr) (v : Byte), s.Ready → regionOf s.cfg a = .rom → regionOf s.cfg b = .rom →
    ∃ l u w, exec (.wr a v) s = .next { s with log := s.log ++ l } ∧
      exec (.rd b) { s with log := s.log ++ l } = .next u ∧ exec (.rd b) s = .next w ∧ u.responses = w.responses

/-- R140: an access that decodes to RAM appends the annotation to the log exactly when the address has a known label,
then the access line when `debug` is set, and nothing else. -/
def Obligations.RamAccessesAreAnnotated : Prop :=
  ∀ (s : State) (a : Addr) (v : Byte), s.Ready → regionOf s.cfg a = .ram →
    ∃ t u, exec (.rd a) s = .next t ∧ exec (.wr a v) s = .next u ∧
      t.log = s.log ++ (if labelOf s.cfg a = .default then [] else [.annotate a (labelOf s.cfg a)]) ++
        (if s.debug then [.access .rd a .ram (s.ramRead (a - s.cfg.ramStart).toNat)] else []) ∧
      u.log = s.log ++ (if labelOf s.cfg a = .default then [] else [.annotate a (labelOf s.cfg a)]) ++
        (if s.debug then [.access .wr a .ram v] else [])

/-- R142 (the spec's own derivation): the number of device calls of every transaction. -/
def Obligations.DeviceCallCount : Prop :=
  ∀ (s t : State) (i : Instr), exec i s = .next t →
    ∃ l, t.history = s.history ++ l ∧
      l.length = match i with
        | .rd a | .wr a _ =>
          if regionOf s.cfg a = .wav ∨ regionOf s.cfg a = .pia ∨ regionOf s.cfg a = .fdc then 1 else 0
        | .nm _ | .br _ _ | .bw _ _ _ => 0

/-! ### The BANK port -/

/-- R152: BR answers the cell of the bank and offset it is given, the byte written there last or the startup's draw, with
no device call and nothing changed; at an offset at or above BANK_SIZE it raises OffsetFault. -/
def Obligations.BrAnswersCell : Prop :=
  ∀ (s : State) (k : Bank) (o : Addr), s.Ready →
    ((o.toNat : Int) < s.cfg.bankSize →
      exec (.br k o) s = .next { s with responses := s.responses ++ [.byte (s.wavRead k o.toNat)] }) ∧
    (∀ v, (s.bank k).read? o.toNat = some v → s.wavRead k o.toNat = v) ∧
    ((s.bank k).read? o.toNat = none → s.wavRead k o.toNat = Config.startByte s.startup (.wav k o.toNat)) ∧
    (s.cfg.bankSize ≤ (o.toNat : Int) → exec (.br k o) s = .next { s with fault := some (.offsetFault k o) })

/-- R153: BW writes the cell of the bank and offset it is given and no other cell, with no device call; at an offset at or
above BANK_SIZE it raises OffsetFault and writes nothing. -/
def Obligations.BwWritesCell : Prop :=
  ∀ (s : State) (k : Bank) (o : Addr) (v : Byte), s.Ready →
    ((o.toNat : Int) < s.cfg.bankSize → ∃ t, exec (.bw k o v) s = .next t ∧
      (∀ j p, t.wavRead j p = if j = k ∧ p = o.toNat then v else s.wavRead j p) ∧
      (∀ p, t.romRead p = s.romRead p) ∧ (∀ p, t.ramRead p = s.ramRead p) ∧
      s.SameModes t ∧ s.SameDevices t ∧ t.responses = s.responses ∧ t.log = s.log) ∧
    (s.cfg.bankSize ≤ (o.toNat : Int) → exec (.bw k o v) s = .next { s with fault := some (.offsetFault k o) })

/-- R154, for the read that follows the write: a WAV byte written with bank `k` selected reads back with bank `k` selected;
with any other bank selected by then, whatever the PIA model answers, the read gives that bank's own byte from before the
write. A WR or BW changes no other cell of any bank. (OnlyWrAndBwChangeWav says of later reads what may come between.) -/
def Obligations.BanksAreIndependent : Prop :=
  (∀ (s : State) (a : Addr) (v : Byte), s.Ready → regionOf s.cfg a = .wav →
    ∃ t, exec (.wr a v) s = .next t ∧
      (∀ j p, ¬ (j = (s.deviceAnswer .pia 0x00#8).extractLsb' 0 2 ∧ p = (a - s.cfg.wavStart).toNat) →
        t.wavRead j p = s.wavRead j p) ∧
      ∀ (answers : List Byte) (draws : Nat), ∃ u,
        exec (.rd a) { t with piaAnswers := answers, draws := draws } = .next u ∧
        let j := (State.deviceAnswer .pia 0x00#8 { t with piaAnswers := answers, draws := draws }).extractLsb' 0 2
        u.responses = s.responses ++
          [.byte (if j = (s.deviceAnswer .pia 0x00#8).extractLsb' 0 2 then v
            else s.wavRead j (a - s.cfg.wavStart).toNat)]) ∧
  ∀ (s t : State) (k j : Bank) (o : Addr) (v : Byte) (p : Nat), exec (.bw k o v) s = .next t →
    ¬ (j = k ∧ p = o.toNat) → t.wavRead j p = s.wavRead j p

/-- R42, R60: the two ports share one store: what BW writes to a bank, RD of the WAV address answers while the PIA selects
that bank, and what WR writes, BR answers. -/
def Obligations.PortsShareTheStore : Prop :=
  ∀ (s : State) (a : Addr) (v p : Byte) (rest : List Byte), s.Ready → regionOf s.cfg a = .wav →
    s.piaAnswers = p :: rest →
    (∃ t u, exec (.bw (p.extractLsb' 0 2) (a - s.cfg.wavStart) v) s = .next t ∧ exec (.rd a) t = .next u ∧
      u.responses = s.responses ++ [.byte v]) ∧
    ∃ t u, exec (.wr a v) s = .next t ∧ exec (.br (p.extractLsb' 0 2) (a - s.cfg.wavStart)) t = .next u ∧
      u.responses = s.responses ++ [.byte v]

/-! ### The labeler -/

/-- R177: NM answers the label of the address, a function of the address and the configuration alone, in every mode, and
changes nothing else. -/
def Obligations.NmAnswersLabel : Prop :=
  (∀ (s : State) (a : Addr), s.Names →
    exec (.nm a) s = .next { s with responses := s.responses ++ [.label (labelOf s.cfg a)] }) ∧
  ∀ (s t u : State) (a : Addr), s.Names → exec (.nm a) s = .next t → exec (.nm a) t = .next u →
    u.responses = s.responses ++ [.label (labelOf s.cfg a), .label (labelOf s.cfg a)]

/-- R171 to R175: the steps of the chain, each under the failure of the steps before it. -/
def Obligations.LabelPriorityChain : Prop :=
  ∀ (c : Cfg) (a : Addr),
    (∀ i e, c.namedTable[i]? = some e → e.1 = a →
      (∀ j f, j < i → c.namedTable[j]? = some f → f.1 ≠ a) → labelOf c a = .named i) ∧
    ((∀ e ∈ c.namedTable, e.1 ≠ a) →
      (c.wavStart ≤ a ∧ a ≤ c.wavEnd → labelOf c a = .wav) ∧
      (¬ (c.wavStart ≤ a ∧ a ≤ c.wavEnd) →
        (a &&& 0xFF00#16 = c.piaPage.setWidth 16 <<< 8 → labelOf c a = .winPia) ∧
        (a &&& 0xFF00#16 ≠ c.piaPage.setWidth 16 <<< 8 →
          (a &&& 0xFF00#16 = c.fdcPage.setWidth 16 <<< 8 → labelOf c a = .winFdc) ∧
          (a &&& 0xFF00#16 ≠ c.fdcPage.setWidth 16 <<< 8 →
            (a &&& 0xFF00#16 = c.sndPage.setWidth 16 <<< 8 → labelOf c a = .winSnd) ∧
            (a &&& 0xFF00#16 ≠ c.sndPage.setWidth 16 <<< 8 →
              labelOf c a = if c.legacyPrecedenceBug = false ∧ a &&& 0xFF00#16 = 0x7F00#16 then .busfault
                else .default))))) ∧
    (c.legacyPrecedenceBug = true → labelOf c a ≠ .busfault) ∧
    Label.wav.text c = some "wav data section" ∧ Label.busfault.text c = some "unknown bus-fault region" ∧
    Label.default.text c = some "?"

/-- R77, R176: the code and the text of each label; every label that the lookup gives has a text, and the index of a named
one lies below N_NAMED. -/
def Obligations.LabelCodesAndTexts : Prop :=
  (∀ (c : Cfg) (a : Addr), (∃ x, (labelOf c a).text c = some x) ∧ (labelOf c a).code.1.toNat ≤ 6 ∧
    ((labelOf c a).code.1 = 0#3 → (labelOf c a).code.2 < c.namedTable.length) ∧
    ((labelOf c a).code.1 ≠ 0#3 → (labelOf c a).code.2 = 0)) ∧
  (∀ (c : Cfg) (i : Nat) (e : Addr × String), c.namedTable[i]? = some e → (Label.named i).text c = some e.2) ∧
  (∀ c : Cfg, Label.wav.text c = some "wav data section" ∧ Label.winPia.text c = some c.lblPia ∧
    Label.winFdc.text c = some c.lblFdc ∧ Label.winSnd.text c = some c.lblSnd ∧
    Label.busfault.text c = some "unknown bus-fault region" ∧ Label.default.text c = some "?") ∧
  (∀ i, (Label.named i).code = (0#3, i)) ∧ Label.wav.code = (1#3, 0) ∧ Label.winPia.code = (2#3, 0) ∧
  Label.winFdc.code = (3#3, 0) ∧ Label.winSnd.code = (4#3, 0) ∧ Label.busfault.code = (5#3, 0) ∧
  Label.default.code = (6#3, 0)

/-! ### Faults and modes -/

/-- R203: a reserved word raises BadOp with its port and the whole word, and reads and writes nothing. -/
def Obligations.ReservedWordRaisesBadOp : Prop :=
  ∀ (s : State) (rest : List Request), s.Ready →
    (∀ w : BitVec 26, w.extractLsb' 24 2 = 0b11#2 → s.requests = .word (.bus w) :: rest →
      step s = .next { s with requests := rest, fault := some (.badOp (.bus w)) }) ∧
    ∀ w : BitVec 28, w.extractLsb' 26 2 = 0b10#2 ∨ w.extractLsb' 26 2 = 0b11#2 →
      s.requests = .word (.bank w) :: rest →
      step s = .next { s with requests := rest, fault := some (.badOp (.bank w)) }

/-- R202: OffsetFault records the bank and the offset and touches no cell; the boundary is BANK_SIZE itself. -/
def Obligations.OffsetFaultAtBankSize : Prop :=
  ∀ (s : State) (k : Bank) (o : Addr) (v : Byte), s.Ready →
    (s.cfg.bankSize ≤ (o.toNat : Int) ↔ ∃ t, exec (.br k o) s = .next t ∧ t.fault = some (.offsetFault k o)) ∧
    (s.cfg.bankSize ≤ (o.toNat : Int) ↔ ∃ t, exec (.bw k o v) s = .next t ∧ t.fault = some (.offsetFault k o)) ∧
    ∀ t, (exec (.br k o) s = .next t ∨ exec (.bw k o v) s = .next t) → t.fault = some (.offsetFault k o) →
      t = { s with fault := some (.offsetFault k o) }

/-- R200: RD, WR and NM complete for every address, data, configuration and bank, and never mark a fault. -/
def Obligations.RdWrNmNeverRaise : Prop :=
  ∀ (s : State) (a : Addr) (v : Byte), s.Ready →
    ∃ t u w, exec (.rd a) s = .next t ∧ t.fault = none ∧ exec (.wr a v) s = .next u ∧ u.fault = none ∧
      exec (.nm a) s = .next w ∧ w.fault = none

/-- R205: once the fault mark is set, no word on either port has a step, and no step clears or changes the mark. -/
def Obligations.FaultsAreFailStop : Prop :=
  (∀ (s : State) (r : FaultRecord) (w : ReqWord) (rest : List Request), s.booted = true → s.fault = some r →
    s.requests = .word w :: rest → step s = .fault (.stuckFaulted r)) ∧
  ∀ (s t : State) (r : FaultRecord), s.fault = some r → step s = .next t → t.fault = some r

/-- R208: while `emergency = 1` every word but NM is without a step, reserved words of either port included, and NM
answers. -/
def Obligations.EmergencyGatesAllButNm : Prop :=
  ∀ (s : State) (w : ReqWord) (rest : List Request), s.booted = true → s.fault = none → s.emergency = true →
    s.requests = .word w :: rest →
    ((∀ a, decode w ≠ .ok (.nm a)) → step s = .fault .stuckEmergency) ∧
    ∀ a, decode w = .ok (.nm a) →
      step s = .next { s with requests := rest, responses := s.responses ++ [.label (labelOf s.cfg a)] }

/-- R206: the checks of one transaction in their order, and at most one fault. -/
def Obligations.TransactionPriority : Prop :=
  ∀ (s : State) (w : ReqWord) (rest : List Request), s.booted = true → s.requests = .word w :: rest →
    (∀ r, s.fault = some r → step s = .fault (.stuckFaulted r)) ∧
    (s.fault = none → s.emergency = true → (∀ a, decode w ≠ .ok (.nm a)) → step s = .fault .stuckEmergency) ∧
    (s.Ready → ∀ e, decode w = .error e → step s = .next { s with requests := rest, fault := some (.badOp w) }) ∧
    (s.Ready → ∀ k o, (decode w = .ok (.br k o) ∨ ∃ v, decode w = .ok (.bw k o v)) →
      s.cfg.bankSize ≤ (o.toNat : Int) →
      step s = .next { s with requests := rest, fault := some (.offsetFault k o) }) ∧
    (s.Ready → ∀ i, decode w = .ok i →
      (∀ k o, (i = .br k o ∨ ∃ v, i = .bw k o v) → (o.toNat : Int) < s.cfg.bankSize) →
      step s = exec i { s with requests := rest } ∧ ∃ t, step s = .next t ∧ t.fault = none)

/-- R211: a step that marks a fault changes the mark and takes its request, and nothing else: no storage, no device call,
no mode, no response. -/
def Obligations.FaultsArePrecise : Prop :=
  ∀ s t : State, step s = .next t → t.fault ≠ s.fault →
    ∃ r rest w, s.fault = none ∧ s.requests = .word w :: rest ∧ t = { s with requests := rest, fault := some r } ∧
      (r = .badOp w ∨ ∃ k o, r = .offsetFault k o)

/-- R29, R30, R207: no step leaves emergency, only the last act of `reportFault` enters it, and only the host changes
`debug`. That the last act is a request of its own is the model's (notes/assumptions/11.md). -/
def Obligations.OnlyTheHostChangesModes : Prop :=
  ∀ s t : State, step s = .next t →
    (s.emergency = true → t.emergency = true) ∧
    (t.emergency ≠ s.emergency → ∃ rest, s.requests = .setEmergency :: rest) ∧
    (t.debug ≠ s.debug → ∃ rest, s.requests = .setDebug t.debug :: rest)

/-! ### The host's acts -/

/-- R207: `reportFault` ends by setting `emergency`, and once more leaves it set. That this last act is a request of its own
is the model's (notes/assumptions/11.md, DESIGN CHOICE), and so is that it happens in every state, a faulted and an
unbooted one included (notes/assumptions/7.md, DEDUCED). -/
def Obligations.ReportFaultEntersEmergency : Prop :=
  ∀ (s : State) (rest : List Request), s.requests = .setEmergency :: rest →
    step s = .next { s with requests := rest, emergency := true }

/-- R209: a fault report presents ordinary RD words for the 16 bytes from the stack pointer on, modulo 2^16, and then
enters emergency. Whether it also reads the byte at SP+16 the spec leaves open, and the ascending order is the model's
choice (notes/assumptions/11.md); that the report is presented in every state is the model's too
(notes/assumptions/7.md, DEDUCED). -/
def Obligations.ReportFaultReadsTheStack : Prop :=
  ∀ (s : State) (sp : Addr) (rest : List Request), s.requests = .reportFault sp :: rest →
    ∃ t extra, step s = .next t ∧ t = { s with requests := t.requests } ∧
      t.requests =
        (List.range 16).map (fun n => Request.word (encode (.rd (sp + BitVec.ofNat 16 n)))) ++ extra ++
          .setEmergency :: rest ∧
      (extra = [] ∨ extra = [.word (encode (.rd (sp + 16#16)))])

/-- R216: a trace hook resolves its destination through the labeler, emits a line only when `debug` is set, and changes
nothing else. What the line holds is the model's choice (notes/assumptions/9.md, DESIGN CHOICE), and so is that a hook acts
in every state, a faulted and an unbooted one included (notes/assumptions/7.md, DEDUCED). -/
def Obligations.TraceHooksOnlyLog : Prop :=
  ∀ (s : State) (h : Hook) (dest : Addr) (rest : List Request), s.requests = .traceHook h dest :: rest →
    ∃ t, step s = .next t ∧ t = { s with requests := rest, log := t.log } ∧
      t.log = s.log ++ if s.debug then [.trace h dest (labelOf s.cfg dest)] else []

/-- R242, steps 1 and 2: a ROM image of the wrong length is refused, one of the right length starts the block, and before
the load no transaction has a step. -/
def Obligations.BootLoadsTheImage : Prop :=
  (∀ (c : Cfg) (rest : List Request), (c.romImage.length : Int) = c.romSize →
    step { State.powerOn c with requests := .loadRom :: rest } = .next { State.started c with requests := rest }) ∧
  (∀ (s : State) (rest : List Request), s.booted = false → (s.cfg.romImage.length : Int) ≠ s.cfg.romSize →
    s.requests = .loadRom :: rest → step s = .refused .romImageSize) ∧
  ∀ (s : State) (i : Instr), s.booted = false → exec i s = .refused .romNotLoaded

/-! ### Reset -/

/-- R240: what startup leaves, under every configuration: ROM_IMAGE in `rom`, every cell of `ram` and `wav` an open draw,
`debug`, `emergency` and `fault` clear, the histories empty. -/
def Obligations.StartupState : Prop :=
  ∀ c : Cfg,
    (State.started c).cfg = c ∧ (State.started c).rom = c.romImage ∧
    (∀ o, (State.started c).ramRead o = Config.startByte (State.started c).startup (.ram o)) ∧
    (∀ k o, (State.started c).wavRead k o = Config.startByte (State.started c).startup (.wav k o)) ∧
    (State.started c).debug = false ∧ (State.started c).emergency = false ∧ (State.started c).fault = none ∧
    (State.started c).history = [] ∧ (State.started c).log = []

/-- The invariant holds at startup under every configuration whose ROM image fits, and at reset. That reset has the
configuration CFG_REF is the model's choice (notes/assumptions/1.md). -/
def Obligations.ResetMeetsTheInvariant : Prop :=
  (∀ c : Cfg, c.wfImage = true → (State.started c).Inv) ∧ State.reset.Inv

/-! ### The whole machine -/

/-- R23 to R25, R204, R242: every step from a state of the invariant ends in one. -/
def Obligations.StepKeepsTheInvariant : Prop :=
  ∀ s t : State, s.Inv → step s = .next t → t.Inv

/-- R26 (and R23, "read-only thereafter"): no step changes the configuration with its label table, and none changes a
loaded ROM. -/
def Obligations.ConfigurationAndRomAreConstant : Prop :=
  ∀ s t : State, step s = .next t → t.cfg = s.cfg ∧ (s.booted = true → t.booted = true ∧ t.rom = s.rom)

/-- R24: the only step that changes a byte of PRG_RAM is a WR that decodes to RAM, at that address's cell. -/
def Obligations.OnlyWrChangesRam : Prop :=
  ∀ (s t : State) (o : Nat), step s = .next t → t.ramRead o ≠ s.ramRead o →
    ∃ a v rest, (s.requests = .memWrite a 1 v :: rest ∨
        ∃ w, s.requests = .word w :: rest ∧ decode w = .ok (.wr a v)) ∧
      regionOf s.cfg a = .ram ∧ o = (a - s.cfg.ramStart).toNat ∧ t.ramRead o = v

/-- R25: the only steps that change a byte of WAV_RAM are a WR that decodes to WAV, at the cell of the bank sampled in
it, and a BW, at its cell. -/
def Obligations.OnlyWrAndBwChangeWav : Prop :=
  ∀ (s t : State) (k : Bank) (o : Nat), step s = .next t → t.wavRead k o ≠ s.wavRead k o →
    (∃ a v rest, (s.requests = .memWrite a 1 v :: rest ∨
        ∃ w, s.requests = .word w :: rest ∧ decode w = .ok (.wr a v)) ∧
      regionOf s.cfg a = .wav ∧ o = (a - s.cfg.wavStart).toNat ∧
      k = (s.deviceAnswer .pia 0x00#8).extractLsb' 0 2 ∧ t.wavRead k o = v) ∨
    ∃ v p w rest, s.requests = .word w :: rest ∧ decode w = .ok (.bw k p v) ∧ o = p.toNat ∧ t.wavRead k o = v

/-- R10, R75: responses, device-call events and log events are only ever appended, at most one response a step. -/
def Obligations.HistoriesOnlyGrow : Prop :=
  ∀ s t : State, step s = .next t →
    s.history <+: t.history ∧ s.responses <+: t.responses ∧ s.log <+: t.log ∧
    t.responses.length ≤ s.responses.length + 1

/-- R245: states that differ in `debug` and in the log alone step to states that differ in those alone, or stop alike:
no response, no other state and no device call depends on them. -/
def Obligations.LoggingChangesNothing : Prop :=
  ∀ s t : State, s.unobserved = t.unobserved → OutcomesAgree (step s) (step t)
end

