-- ==== Sys2Proof/Laws/Configs.lean ====
section
/-!
SUPPORT. The fields of the two named configurations, so that no proof unfolds one with its ROM image, and the sizes of
the images.
-/

namespace Sys2Proof.Config

@[simp] theorem cfgRef_romStart : cfgRef.romStart = 0xF000#16 := rfl
@[simp] theorem cfgRef_romEnd : cfgRef.romEnd = 0xFFFF#16 := rfl
@[simp] theorem cfgRef_ramStart : cfgRef.ramStart = 0x0000#16 := rfl
@[simp] theorem cfgRef_ramEnd : cfgRef.ramEnd = 0x7FFF#16 := rfl
@[simp] theorem cfgRef_wavStart : cfgRef.wavStart = 0x8000#16 := rfl
@[simp] theorem cfgRef_wavEnd : cfgRef.wavEnd = 0xBEFF#16 := rfl
@[simp] theorem cfgRef_cartStart : cfgRef.cartStart = 0xC000#16 := rfl
@[simp] theorem cfgRef_cartEnd : cfgRef.cartEnd = 0xDFFF#16 := rfl
@[simp] theorem cfgRef_piaPage : cfgRef.piaPage = 0xE2#8 := rfl
@[simp] theorem cfgRef_fdcPage : cfgRef.fdcPage = 0xE8#8 := rfl
@[simp] theorem cfgRef_sndPage : cfgRef.sndPage = 0xEC#8 := rfl
@[simp] theorem cfgRef_namedTable : cfgRef.namedTable = ntTest := rfl
@[simp] theorem cfgRef_legacyPrecedenceBug : cfgRef.legacyPrecedenceBug = false := rfl

@[simp] theorem cfgS89_romStart : cfgS89.romStart = 0xC000#16 := rfl
@[simp] theorem cfgS89_romEnd : cfgS89.romEnd = 0xFFFF#16 := rfl
@[simp] theorem cfgS89_ramStart : cfgS89.ramStart = 0x0000#16 := rfl
@[simp] theorem cfgS89_ramEnd : cfgS89.ramEnd = 0x7FFF#16 := rfl
@[simp] theorem cfgS89_wavStart : cfgS89.wavStart = 0x8000#16 := rfl
@[simp] theorem cfgS89_wavEnd : cfgS89.wavEnd = 0xBEFF#16 := rfl
@[simp] theorem cfgS89_cartStart : cfgS89.cartStart = 0xFFFF#16 := rfl
@[simp] theorem cfgS89_cartEnd : cfgS89.cartEnd = 0x0000#16 := rfl
@[simp] theorem cfgS89_piaPage : cfgS89.piaPage = 0xE2#8 := rfl
@[simp] theorem cfgS89_fdcPage : cfgS89.fdcPage = 0xE8#8 := rfl
@[simp] theorem cfgS89_sndPage : cfgS89.sndPage = 0xEC#8 := rfl
@[simp] theorem cfgS89_namedTable : cfgS89.namedTable = ntTest := rfl
@[simp] theorem cfgS89_legacyPrecedenceBug : cfgS89.legacyPrecedenceBug = false := rfl

@[simp] theorem length_imageFrom (f : Nat → Byte) (n o : Nat) : (imageFrom f n o).length = n := by
  induction n generalizing o with
  | zero => rfl
  | succ n ih => simp [imageFrom, ih]

/-- The byte of an image at an index. -/
theorem getElem?_imageFrom (f : Nat → Byte) (n o i : Nat) (h : i < n) : (imageFrom f n o)[i]? = some (f (o + i)) := by
  induction n generalizing o i with
  | zero => omega
  | succ n ih =>
    cases i with
    | zero => rfl
    | succ i =>
      simp only [imageFrom, List.getElem?_cons_succ]
      rw [ih (o + 1) i (by omega)]
      congr 2
      omega

theorem cfgRef_romImage_length : cfgRef.romImage.length = 4096 := length_imageFrom _ _ _

theorem cfgS89_romImage_length : cfgS89.romImage.length = 16384 := by
  change (imageFrom s89RomByte 16383 1).length + 1 = 16384
  rw [length_imageFrom]

/-- CFG_REF's image has exactly ROM_SIZE bytes (R46 (e)). -/
theorem cfgRef_wfImage : cfgRef.wfImage = true := by
  simp [Cfg.wfImage, Cfg.romSize, cfgRef_romImage_length]

/-- CFG_S89's image has exactly ROM_SIZE bytes (R46 (e)). -/
theorem cfgS89_wfImage : cfgS89.wfImage = true := by
  simp [Cfg.wfImage, Cfg.romSize, cfgS89_romImage_length]

end Sys2Proof.Config
end

