-- ==== Sys2Proof/Laws/Decode.lean ====
section
/-!
SUPPORT. The fields of an assembled request word, one lemma per field, and what the decoder makes of it.
-/

namespace Sys2Proof

variable (op k : BitVec 2) (a : Addr) (d : Byte)

@[simp] theorem busWord_op : (busWord op a d).extractLsb' 24 2 = op := by
  ext i hi
  simp only [busWord, BitVec.getElem_extractLsb', BitVec.getLsbD_append]
  interval_cases i <;> simp

@[simp] theorem busWord_addr : (busWord op a d).extractLsb' 8 16 = a := by
  ext i hi
  simp only [busWord, BitVec.getElem_extractLsb', BitVec.getLsbD_append]
  interval_cases i <;> simp

@[simp] theorem busWord_data : (busWord op a d).extractLsb' 0 8 = d := by
  ext i hi
  simp only [busWord, BitVec.getElem_extractLsb', BitVec.getLsbD_append]
  interval_cases i <;> simp

@[simp] theorem bankWord_op : (bankWord op k a d).extractLsb' 26 2 = op := by
  ext i hi
  simp only [bankWord, BitVec.getElem_extractLsb', BitVec.getLsbD_append]
  interval_cases i <;> simp

@[simp] theorem bankWord_bank : (bankWord op k a d).extractLsb' 24 2 = k := by
  ext i hi
  simp only [bankWord, BitVec.getElem_extractLsb', BitVec.getLsbD_append]
  interval_cases i <;> simp

@[simp] theorem bankWord_offset : (bankWord op k a d).extractLsb' 8 16 = a := by
  ext i hi
  simp only [bankWord, BitVec.getElem_extractLsb', BitVec.getLsbD_append]
  interval_cases i <;> simp

@[simp] theorem bankWord_data : (bankWord op k a d).extractLsb' 0 8 = d := by
  ext i hi
  simp only [bankWord, BitVec.getElem_extractLsb', BitVec.getLsbD_append]
  interval_cases i <;> simp

/-- A BUS word is its three fields. -/
theorem busWord_fields (w : BitVec 26) :
    busWord (w.extractLsb' 24 2) (w.extractLsb' 8 16) (w.extractLsb' 0 8) = w := by
  refine BitVec.eq_of_getLsbD_eq fun i hi => ?_
  simp only [busWord, BitVec.getLsbD_append, BitVec.getLsbD_extractLsb']
  interval_cases i <;> simp

/-- A BANK word is its four fields. -/
theorem bankWord_fields (w : BitVec 28) :
    bankWord (w.extractLsb' 26 2) (w.extractLsb' 24 2) (w.extractLsb' 8 16) (w.extractLsb' 0 8) = w := by
  refine BitVec.eq_of_getLsbD_eq fun i hi => ?_
  simp only [bankWord, BitVec.getLsbD_append, BitVec.getLsbD_extractLsb']
  interval_cases i <;> simp

/-- The decoder on an assembled BUS word. -/
theorem decode_busWord :
    decode (.bus (busWord op a d)) =
      if op = 0b00#2 then .ok (.rd a) else if op = 0b01#2 then .ok (.wr a d)
      else if op = 0b10#2 then .ok (.nm a) else .error .busOp := by
  simp [decode, decodeBus, busOpField]

/-- The decoder on an assembled BANK word. -/
theorem decode_bankWord :
    decode (.bank (bankWord op k a d)) =
      if op = 0b00#2 then .ok (.br k a) else if op = 0b01#2 then .ok (.bw k a d) else .error .bankOp2 := by
  simp [decode, decodeBank, bankOpField]

end Sys2Proof
end

