-- ==== Sys2Proof/Laws/Memory.lean ====
section
/-!
SUPPORT. The laws of a storage array: a read after a write, every other cell left alone, and the canonical form kept.
-/

namespace Sys2Proof.Machine.Memory

/-- What every read gives after a write: the byte at the written index, the old answer everywhere else. -/
theorem read?_write (m : Memory) (a b : Nat) (v : Byte) :
    (m.write a v).read? b = if b = a then some v else m.read? b := by
  induction m with
  | nil => simp [write, read?, eq_comm]
  | cons p rest ih =>
    obtain ⟨k, w⟩ := p
    simp only [write]
    split
    · by_cases hb : b = a
      · simp [read?, hb]
      · simp [read?, hb, Ne.symm hb]
    · split
      · rename_i _ h
        subst h
        by_cases hb : b = k
        · simp [read?, hb]
        · simp [read?, hb, Ne.symm hb]
      · rename_i _ h
        simp only [read?, ih]
        by_cases hb : b = a
        · simp [hb, h]
        · simp [hb]

@[simp] theorem read?_write_same (m : Memory) (a : Nat) (v : Byte) : (m.write a v).read? a = some v := by
  simp [read?_write]

theorem read?_write_other (m : Memory) {a b : Nat} (v : Byte) (h : b ≠ a) :
    (m.write a v).read? b = m.read? b := by
  simp [read?_write, h]

/-- The cells listed after a write are the written one and cells listed before. -/
theorem mem_write {m : Memory} {a : Nat} {v : Byte} {p : Host.Cell} (h : p ∈ m.write a v) :
    p = (a, v) ∨ p ∈ m := by
  induction m with
  | nil => simpa [write] using h
  | cons q rest ih =>
    obtain ⟨k, w⟩ := q
    simp only [write] at h
    split at h
    · simpa using h
    · split at h
      · rename_i _ hk
        subst hk
        rcases List.mem_cons.mp h with h | h
        · exact .inl h
        · exact .inr (List.mem_cons_of_mem _ h)
      · rcases List.mem_cons.mp h with h | h
        · exact .inr (h ▸ List.mem_cons_self)
        · exact (ih h).imp id (List.mem_cons_of_mem _)

/-- A write keeps the canonical form. -/
theorem wf_write {m : Memory} (a : Nat) (v : Byte) (h : m.wf) : (m.write a v).wf := by
  induction m with
  | nil => simp [write, wf]
  | cons p rest ih =>
    obtain ⟨k, w⟩ := p
    rw [wf, List.pairwise_cons] at h
    simp only [write]
    split
    · rename_i hak
      refine List.pairwise_cons.mpr ⟨fun q hq => ?_, List.pairwise_cons.mpr h⟩
      rcases List.mem_cons.mp hq with rfl | hq
      · exact hak
      · exact hak.trans (h.1 q hq)
    · split
      · rename_i _ hk
        exact List.pairwise_cons.mpr ⟨fun q hq => h.1 q hq, h.2⟩
      · rename_i hak hk
        refine List.pairwise_cons.mpr ⟨fun q hq => ?_, ih h.2⟩
        rcases mem_write hq with rfl | hq
        · change k < a
          omega
        · exact h.1 q hq

/-- A write below the size keeps every listed index below it. -/
theorem below_write {m : Memory} {size : Int} {a : Nat} (v : Byte) (h : m.below size) (ha : (a : Int) < size) :
    (m.write a v).below size := by
  intro p hp
  rcases mem_write hp with rfl | hp
  · exact ha
  · exact h p hp

/-- The empty array is in canonical form. -/
theorem wf_nil : wf ([] : Memory) := List.Pairwise.nil

/-- Listed first index of a canonical array reads back, and no smaller index is listed. -/
theorem read?_eq_none_of_lt {m : Memory} {a : Nat} (h : ∀ p ∈ m, a < p.1) : m.read? a = none := by
  induction m with
  | nil => rfl
  | cons p rest ih =>
    obtain ⟨k, w⟩ := p
    have hk : a < k := h (k, w) List.mem_cons_self
    simp only [read?]
    rw [if_neg (by omega)]
    exact ih fun q hq => h q (List.mem_cons_of_mem _ hq)

/-- Equal memories are equal data: two arrays in canonical form that answer every read alike are one list. -/
theorem ext_of_wf {m n : Memory} (hm : m.wf) (hn : n.wf) (h : ∀ a, m.read? a = n.read? a) : m = n := by
  induction m generalizing n with
  | nil =>
    cases n with
    | nil => rfl
    | cons q n => simpa [read?] using h q.1
  | cons p m ih =>
    obtain ⟨k, v⟩ := p
    rw [wf, List.pairwise_cons] at hm
    cases n with
    | nil => simpa [read?] using h k
    | cons q n =>
      obtain ⟨j, w⟩ := q
      rw [wf, List.pairwise_cons] at hn
      have hkj : k = j := by
        by_contra hne
        rcases Nat.lt_or_gt_of_ne hne with hlt | hlt
        · have := h k
          rw [read?_eq_none_of_lt (m := (j, w) :: n)] at this
          · simp [read?] at this
          · intro r hr
            rcases List.mem_cons.mp hr with rfl | hr
            · exact hlt
            · exact hlt.trans (hn.1 r hr)
        · have := h j
          rw [read?_eq_none_of_lt (m := (k, v) :: m)] at this
          · simp [read?] at this
          · intro r hr
            rcases List.mem_cons.mp hr with rfl | hr
            · exact hlt
            · exact hlt.trans (hm.1 r hr)
      subst hkj
      have hvw : v = w := by simpa [read?] using h k
      subst hvw
      congr 1
      refine ih hm.2 hn.2 fun a => ?_
      by_cases ha : k = a
      · subst ha
        rw [read?_eq_none_of_lt hm.1, read?_eq_none_of_lt hn.1]
      · simpa [read?, ha] using h a

end Sys2Proof.Machine.Memory
end

