-- ==== Sys2Proof/Laws/State.lean ====
section
/-!
SUPPORT. One lemma per field per update of the state, so that no later proof unfolds a record update.
-/

namespace Sys2Proof.Machine.State

variable (s : State)

@[simp] theorem answer_cfg (r : Response) : (s.answer r).cfg = s.cfg := rfl
@[simp] theorem answer_booted (r : Response) : (s.answer r).booted = s.booted := rfl
@[simp] theorem answer_rom (r : Response) : (s.answer r).rom = s.rom := rfl
@[simp] theorem answer_ram (r : Response) : (s.answer r).ram = s.ram := rfl
@[simp] theorem answer_wav (r : Response) : (s.answer r).wav = s.wav := rfl
@[simp] theorem answer_debug (r : Response) : (s.answer r).debug = s.debug := rfl
@[simp] theorem answer_emergency (r : Response) : (s.answer r).emergency = s.emergency := rfl
@[simp] theorem answer_fault (r : Response) : (s.answer r).fault = s.fault := rfl
@[simp] theorem answer_history (r : Response) : (s.answer r).history = s.history := rfl
@[simp] theorem answer_responses (r : Response) : (s.answer r).responses = s.responses ++ [r] := rfl
@[simp] theorem answer_log (r : Response) : (s.answer r).log = s.log := rfl
@[simp] theorem answer_requests (r : Response) : (s.answer r).requests = s.requests := rfl
@[simp] theorem answer_piaAnswers (r : Response) : (s.answer r).piaAnswers = s.piaAnswers := rfl
@[simp] theorem answer_fdcAnswers (r : Response) : (s.answer r).fdcAnswers = s.fdcAnswers := rfl
@[simp] theorem answer_startup (r : Response) : (s.answer r).startup = s.startup := rfl
@[simp] theorem answer_draws (r : Response) : (s.answer r).draws = s.draws := rfl

@[simp] theorem emit_cfg (e : LogEvent) : (s.emit e).cfg = s.cfg := rfl
@[simp] theorem emit_booted (e : LogEvent) : (s.emit e).booted = s.booted := rfl
@[simp] theorem emit_rom (e : LogEvent) : (s.emit e).rom = s.rom := rfl
@[simp] theorem emit_ram (e : LogEvent) : (s.emit e).ram = s.ram := rfl
@[simp] theorem emit_wav (e : LogEvent) : (s.emit e).wav = s.wav := rfl
@[simp] theorem emit_debug (e : LogEvent) : (s.emit e).debug = s.debug := rfl
@[simp] theorem emit_emergency (e : LogEvent) : (s.emit e).emergency = s.emergency := rfl
@[simp] theorem emit_fault (e : LogEvent) : (s.emit e).fault = s.fault := rfl
@[simp] theorem emit_history (e : LogEvent) : (s.emit e).history = s.history := rfl
@[simp] theorem emit_responses (e : LogEvent) : (s.emit e).responses = s.responses := rfl
@[simp] theorem emit_log (e : LogEvent) : (s.emit e).log = s.log ++ [e] := rfl
@[simp] theorem emit_requests (e : LogEvent) : (s.emit e).requests = s.requests := rfl
@[simp] theorem emit_piaAnswers (e : LogEvent) : (s.emit e).piaAnswers = s.piaAnswers := rfl
@[simp] theorem emit_fdcAnswers (e : LogEvent) : (s.emit e).fdcAnswers = s.fdcAnswers := rfl
@[simp] theorem emit_startup (e : LogEvent) : (s.emit e).startup = s.startup := rfl
@[simp] theorem emit_draws (e : LogEvent) : (s.emit e).draws = s.draws := rfl

@[simp] theorem record_cfg (e : DevEvent) : (s.record e).cfg = s.cfg := rfl
@[simp] theorem record_booted (e : DevEvent) : (s.record e).booted = s.booted := rfl
@[simp] theorem record_rom (e : DevEvent) : (s.record e).rom = s.rom := rfl
@[simp] theorem record_ram (e : DevEvent) : (s.record e).ram = s.ram := rfl
@[simp] theorem record_wav (e : DevEvent) : (s.record e).wav = s.wav := rfl
@[simp] theorem record_debug (e : DevEvent) : (s.record e).debug = s.debug := rfl
@[simp] theorem record_emergency (e : DevEvent) : (s.record e).emergency = s.emergency := rfl
@[simp] theorem record_fault (e : DevEvent) : (s.record e).fault = s.fault := rfl
@[simp] theorem record_history (e : DevEvent) : (s.record e).history = s.history ++ [e] := rfl
@[simp] theorem record_responses (e : DevEvent) : (s.record e).responses = s.responses := rfl
@[simp] theorem record_log (e : DevEvent) : (s.record e).log = s.log := rfl
@[simp] theorem record_requests (e : DevEvent) : (s.record e).requests = s.requests := rfl
@[simp] theorem record_piaAnswers (e : DevEvent) : (s.record e).piaAnswers = s.piaAnswers := rfl
@[simp] theorem record_fdcAnswers (e : DevEvent) : (s.record e).fdcAnswers = s.fdcAnswers := rfl
@[simp] theorem record_startup (e : DevEvent) : (s.record e).startup = s.startup := rfl
@[simp] theorem record_draws (e : DevEvent) : (s.record e).draws = s.draws := rfl

@[simp] theorem raise_cfg (r : FaultRecord) : (s.raise r).cfg = s.cfg := rfl
@[simp] theorem raise_booted (r : FaultRecord) : (s.raise r).booted = s.booted := rfl
@[simp] theorem raise_rom (r : FaultRecord) : (s.raise r).rom = s.rom := rfl
@[simp] theorem raise_ram (r : FaultRecord) : (s.raise r).ram = s.ram := rfl
@[simp] theorem raise_wav (r : FaultRecord) : (s.raise r).wav = s.wav := rfl
@[simp] theorem raise_debug (r : FaultRecord) : (s.raise r).debug = s.debug := rfl
@[simp] theorem raise_emergency (r : FaultRecord) : (s.raise r).emergency = s.emergency := rfl
@[simp] theorem raise_fault (r : FaultRecord) : (s.raise r).fault = some r := rfl
@[simp] theorem raise_history (r : FaultRecord) : (s.raise r).history = s.history := rfl
@[simp] theorem raise_responses (r : FaultRecord) : (s.raise r).responses = s.responses := rfl
@[simp] theorem raise_log (r : FaultRecord) : (s.raise r).log = s.log := rfl
@[simp] theorem raise_requests (r : FaultRecord) : (s.raise r).requests = s.requests := rfl
@[simp] theorem raise_piaAnswers (r : FaultRecord) : (s.raise r).piaAnswers = s.piaAnswers := rfl
@[simp] theorem raise_fdcAnswers (r : FaultRecord) : (s.raise r).fdcAnswers = s.fdcAnswers := rfl
@[simp] theorem raise_startup (r : FaultRecord) : (s.raise r).startup = s.startup := rfl
@[simp] theorem raise_draws (r : FaultRecord) : (s.raise r).draws = s.draws := rfl

@[simp] theorem setRam_cfg (m : Memory) : (s.setRam m).cfg = s.cfg := rfl
@[simp] theorem setRam_booted (m : Memory) : (s.setRam m).booted = s.booted := rfl
@[simp] theorem setRam_rom (m : Memory) : (s.setRam m).rom = s.rom := rfl
@[simp] theorem setRam_ram (m : Memory) : (s.setRam m).ram = m := rfl
@[simp] theorem setRam_wav (m : Memory) : (s.setRam m).wav = s.wav := rfl
@[simp] theorem setRam_debug (m : Memory) : (s.setRam m).debug = s.debug := rfl
@[simp] theorem setRam_emergency (m : Memory) : (s.setRam m).emergency = s.emergency := rfl
@[simp] theorem setRam_fault (m : Memory) : (s.setRam m).fault = s.fault := rfl
@[simp] theorem setRam_history (m : Memory) : (s.setRam m).history = s.history := rfl
@[simp] theorem setRam_responses (m : Memory) : (s.setRam m).responses = s.responses := rfl
@[simp] theorem setRam_log (m : Memory) : (s.setRam m).log = s.log := rfl
@[simp] theorem setRam_requests (m : Memory) : (s.setRam m).requests = s.requests := rfl
@[simp] theorem setRam_piaAnswers (m : Memory) : (s.setRam m).piaAnswers = s.piaAnswers := rfl
@[simp] theorem setRam_fdcAnswers (m : Memory) : (s.setRam m).fdcAnswers = s.fdcAnswers := rfl
@[simp] theorem setRam_startup (m : Memory) : (s.setRam m).startup = s.startup := rfl
@[simp] theorem setRam_draws (m : Memory) : (s.setRam m).draws = s.draws := rfl

@[simp] theorem setBank_cfg (k : Bank) (m : Memory) : (s.setBank k m).cfg = s.cfg := rfl
@[simp] theorem setBank_booted (k : Bank) (m : Memory) : (s.setBank k m).booted = s.booted := rfl
@[simp] theorem setBank_rom (k : Bank) (m : Memory) : (s.setBank k m).rom = s.rom := rfl
@[simp] theorem setBank_ram (k : Bank) (m : Memory) : (s.setBank k m).ram = s.ram := rfl
@[simp] theorem setBank_wav (k : Bank) (m : Memory) : (s.setBank k m).wav = s.wav.set k.toNat m k.isLt := rfl
@[simp] theorem setBank_debug (k : Bank) (m : Memory) : (s.setBank k m).debug = s.debug := rfl
@[simp] theorem setBank_emergency (k : Bank) (m : Memory) : (s.setBank k m).emergency = s.emergency := rfl
@[simp] theorem setBank_fault (k : Bank) (m : Memory) : (s.setBank k m).fault = s.fault := rfl
@[simp] theorem setBank_history (k : Bank) (m : Memory) : (s.setBank k m).history = s.history := rfl
@[simp] theorem setBank_responses (k : Bank) (m : Memory) : (s.setBank k m).responses = s.responses := rfl
@[simp] theorem setBank_log (k : Bank) (m : Memory) : (s.setBank k m).log = s.log := rfl
@[simp] theorem setBank_requests (k : Bank) (m : Memory) : (s.setBank k m).requests = s.requests := rfl
@[simp] theorem setBank_piaAnswers (k : Bank) (m : Memory) : (s.setBank k m).piaAnswers = s.piaAnswers := rfl
@[simp] theorem setBank_fdcAnswers (k : Bank) (m : Memory) : (s.setBank k m).fdcAnswers = s.fdcAnswers := rfl
@[simp] theorem setBank_startup (k : Bank) (m : Memory) : (s.setBank k m).startup = s.startup := rfl
@[simp] theorem setBank_draws (k : Bank) (m : Memory) : (s.setBank k m).draws = s.draws := rfl

@[simp] theorem loadImage_cfg : (s.loadImage).cfg = s.cfg := rfl
@[simp] theorem loadImage_booted : (s.loadImage).booted = true := rfl
@[simp] theorem loadImage_rom : (s.loadImage).rom = s.cfg.romImage := rfl
@[simp] theorem loadImage_ram : (s.loadImage).ram = s.ram := rfl
@[simp] theorem loadImage_wav : (s.loadImage).wav = s.wav := rfl
@[simp] theorem loadImage_debug : (s.loadImage).debug = s.debug := rfl
@[simp] theorem loadImage_emergency : (s.loadImage).emergency = s.emergency := rfl
@[simp] theorem loadImage_fault : (s.loadImage).fault = s.fault := rfl
@[simp] theorem loadImage_history : (s.loadImage).history = s.history := rfl
@[simp] theorem loadImage_responses : (s.loadImage).responses = s.responses := rfl
@[simp] theorem loadImage_log : (s.loadImage).log = s.log := rfl
@[simp] theorem loadImage_requests : (s.loadImage).requests = s.requests := rfl
@[simp] theorem loadImage_piaAnswers : (s.loadImage).piaAnswers = s.piaAnswers := rfl
@[simp] theorem loadImage_fdcAnswers : (s.loadImage).fdcAnswers = s.fdcAnswers := rfl
@[simp] theorem loadImage_startup : (s.loadImage).startup = s.startup := rfl
@[simp] theorem loadImage_draws : (s.loadImage).draws = s.draws := rfl

@[simp] theorem setDebug_cfg (b : Bool) : (s.setDebug b).cfg = s.cfg := rfl
@[simp] theorem setDebug_booted (b : Bool) : (s.setDebug b).booted = s.booted := rfl
@[simp] theorem setDebug_rom (b : Bool) : (s.setDebug b).rom = s.rom := rfl
@[simp] theorem setDebug_ram (b : Bool) : (s.setDebug b).ram = s.ram := rfl
@[simp] theorem setDebug_wav (b : Bool) : (s.setDebug b).wav = s.wav := rfl
@[simp] theorem setDebug_debug (b : Bool) : (s.setDebug b).debug = b := rfl
@[simp] theorem setDebug_emergency (b : Bool) : (s.setDebug b).emergency = s.emergency := rfl
@[simp] theorem setDebug_fault (b : Bool) : (s.setDebug b).fault = s.fault := rfl
@[simp] theorem setDebug_history (b : Bool) : (s.setDebug b).history = s.history := rfl
@[simp] theorem setDebug_responses (b : Bool) : (s.setDebug b).responses = s.responses := rfl
@[simp] theorem setDebug_log (b : Bool) : (s.setDebug b).log = s.log := rfl
@[simp] theorem setDebug_requests (b : Bool) : (s.setDebug b).requests = s.requests := rfl
@[simp] theorem setDebug_piaAnswers (b : Bool) : (s.setDebug b).piaAnswers = s.piaAnswers := rfl
@[simp] theorem setDebug_fdcAnswers (b : Bool) : (s.setDebug b).fdcAnswers = s.fdcAnswers := rfl
@[simp] theorem setDebug_startup (b : Bool) : (s.setDebug b).startup = s.startup := rfl
@[simp] theorem setDebug_draws (b : Bool) : (s.setDebug b).draws = s.draws := rfl

@[simp] theorem enterEmergency_cfg : (s.enterEmergency).cfg = s.cfg := rfl
@[simp] theorem enterEmergency_booted : (s.enterEmergency).booted = s.booted := rfl
@[simp] theorem enterEmergency_rom : (s.enterEmergency).rom = s.rom := rfl
@[simp] theorem enterEmergency_ram : (s.enterEmergency).ram = s.ram := rfl
@[simp] theorem enterEmergency_wav : (s.enterEmergency).wav = s.wav := rfl
@[simp] theorem enterEmergency_debug : (s.enterEmergency).debug = s.debug := rfl
@[simp] theorem enterEmergency_emergency : (s.enterEmergency).emergency = true := rfl
@[simp] theorem enterEmergency_fault : (s.enterEmergency).fault = s.fault := rfl
@[simp] theorem enterEmergency_history : (s.enterEmergency).history = s.history := rfl
@[simp] theorem enterEmergency_responses : (s.enterEmergency).responses = s.responses := rfl
@[simp] theorem enterEmergency_log : (s.enterEmergency).log = s.log := rfl
@[simp] theorem enterEmergency_requests : (s.enterEmergency).requests = s.requests := rfl
@[simp] theorem enterEmergency_piaAnswers : (s.enterEmergency).piaAnswers = s.piaAnswers := rfl
@[simp] theorem enterEmergency_fdcAnswers : (s.enterEmergency).fdcAnswers = s.fdcAnswers := rfl
@[simp] theorem enterEmergency_startup : (s.enterEmergency).startup = s.startup := rfl
@[simp] theorem enterEmergency_draws : (s.enterEmergency).draws = s.draws := rfl

@[simp] theorem setRequests_cfg (l : List Request) : (s.setRequests l).cfg = s.cfg := rfl
@[simp] theorem setRequests_booted (l : List Request) : (s.setRequests l).booted = s.booted := rfl
@[simp] theorem setRequests_rom (l : List Request) : (s.setRequests l).rom = s.rom := rfl
@[simp] theorem setRequests_ram (l : List Request) : (s.setRequests l).ram = s.ram := rfl
@[simp] theorem setRequests_wav (l : List Request) : (s.setRequests l).wav = s.wav := rfl
@[simp] theorem setRequests_debug (l : List Request) : (s.setRequests l).debug = s.debug := rfl
@[simp] theorem setRequests_emergency (l : List Request) : (s.setRequests l).emergency = s.emergency := rfl
@[simp] theorem setRequests_fault (l : List Request) : (s.setRequests l).fault = s.fault := rfl
@[simp] theorem setRequests_history (l : List Request) : (s.setRequests l).history = s.history := rfl
@[simp] theorem setRequests_responses (l : List Request) : (s.setRequests l).responses = s.responses := rfl
@[simp] theorem setRequests_log (l : List Request) : (s.setRequests l).log = s.log := rfl
@[simp] theorem setRequests_requests (l : List Request) : (s.setRequests l).requests = l := rfl
@[simp] theorem setRequests_piaAnswers (l : List Request) : (s.setRequests l).piaAnswers = s.piaAnswers := rfl
@[simp] theorem setRequests_fdcAnswers (l : List Request) : (s.setRequests l).fdcAnswers = s.fdcAnswers := rfl
@[simp] theorem setRequests_startup (l : List Request) : (s.setRequests l).startup = s.startup := rfl
@[simp] theorem setRequests_draws (l : List Request) : (s.setRequests l).draws = s.draws := rfl

@[simp] theorem countDraw_cfg : (s.countDraw).cfg = s.cfg := rfl
@[simp] theorem countDraw_booted : (s.countDraw).booted = s.booted := rfl
@[simp] theorem countDraw_rom : (s.countDraw).rom = s.rom := rfl
@[simp] theorem countDraw_ram : (s.countDraw).ram = s.ram := rfl
@[simp] theorem countDraw_wav : (s.countDraw).wav = s.wav := rfl
@[simp] theorem countDraw_debug : (s.countDraw).debug = s.debug := rfl
@[simp] theorem countDraw_emergency : (s.countDraw).emergency = s.emergency := rfl
@[simp] theorem countDraw_fault : (s.countDraw).fault = s.fault := rfl
@[simp] theorem countDraw_history : (s.countDraw).history = s.history := rfl
@[simp] theorem countDraw_responses : (s.countDraw).responses = s.responses := rfl
@[simp] theorem countDraw_log : (s.countDraw).log = s.log := rfl
@[simp] theorem countDraw_requests : (s.countDraw).requests = s.requests := rfl
@[simp] theorem countDraw_piaAnswers : (s.countDraw).piaAnswers = s.piaAnswers := rfl
@[simp] theorem countDraw_fdcAnswers : (s.countDraw).fdcAnswers = s.fdcAnswers := rfl
@[simp] theorem countDraw_startup : (s.countDraw).startup = s.startup := rfl
@[simp] theorem countDraw_draws : (s.countDraw).draws = s.draws + 1 := rfl

@[simp] theorem setAnswers_cfg (d : Device) (l : List Byte) : (s.setAnswers d l).cfg = s.cfg := by
  cases d <;> rfl
@[simp] theorem setAnswers_booted (d : Device) (l : List Byte) : (s.setAnswers d l).booted = s.booted := by
  cases d <;> rfl
@[simp] theorem setAnswers_rom (d : Device) (l : List Byte) : (s.setAnswers d l).rom = s.rom := by
  cases d <;> rfl
@[simp] theorem setAnswers_ram (d : Device) (l : List Byte) : (s.setAnswers d l).ram = s.ram := by
  cases d <;> rfl
@[simp] theorem setAnswers_wav (d : Device) (l : List Byte) : (s.setAnswers d l).wav = s.wav := by
  cases d <;> rfl
@[simp] theorem setAnswers_debug (d : Device) (l : List Byte) : (s.setAnswers d l).debug = s.debug := by
  cases d <;> rfl
@[simp] theorem setAnswers_emergency (d : Device) (l : List Byte) : (s.setAnswers d l).emergency = s.emergency := by
  cases d <;> rfl
@[simp] theorem setAnswers_fault (d : Device) (l : List Byte) : (s.setAnswers d l).fault = s.fault := by
  cases d <;> rfl
@[simp] theorem setAnswers_history (d : Device) (l : List Byte) : (s.setAnswers d l).history = s.history := by
  cases d <;> rfl
@[simp] theorem setAnswers_responses (d : Device) (l : List Byte) : (s.setAnswers d l).responses = s.responses := by
  cases d <;> rfl
@[simp] theorem setAnswers_log (d : Device) (l : List Byte) : (s.setAnswers d l).log = s.log := by
  cases d <;> rfl
@[simp] theorem setAnswers_requests (d : Device) (l : List Byte) : (s.setAnswers d l).requests = s.requests := by
  cases d <;> rfl
@[simp] theorem setAnswers_startup (d : Device) (l : List Byte) : (s.setAnswers d l).startup = s.startup := by
  cases d <;> rfl
@[simp] theorem setAnswers_draws (d : Device) (l : List Byte) : (s.setAnswers d l).draws = s.draws := by
  cases d <;> rfl

@[simp] theorem setAnswers_answersOf (d e : Device) (l : List Byte) :
    (s.setAnswers d l).answersOf e = if e = d then l else s.answersOf e := by
  cases d <;> cases e <;> rfl

@[simp] theorem answer_answersOf (r : Response) (d : Device) : (s.answer r).answersOf d = s.answersOf d := by
  cases d <;> rfl
@[simp] theorem emit_answersOf (e : LogEvent) (d : Device) : (s.emit e).answersOf d = s.answersOf d := by
  cases d <;> rfl
@[simp] theorem record_answersOf (e : DevEvent) (d : Device) : (s.record e).answersOf d = s.answersOf d := by
  cases d <;> rfl
@[simp] theorem raise_answersOf (r : FaultRecord) (d : Device) : (s.raise r).answersOf d = s.answersOf d := by
  cases d <;> rfl
@[simp] theorem setRam_answersOf (m : Memory) (d : Device) : (s.setRam m).answersOf d = s.answersOf d := by
  cases d <;> rfl
@[simp] theorem setBank_answersOf (k : Bank) (m : Memory) (d : Device) : (s.setBank k m).answersOf d = s.answersOf d := by
  cases d <;> rfl
@[simp] theorem loadImage_answersOf (d : Device) : (s.loadImage).answersOf d = s.answersOf d := by
  cases d <;> rfl
@[simp] theorem setDebug_answersOf (b : Bool) (d : Device) : (s.setDebug b).answersOf d = s.answersOf d := by
  cases d <;> rfl
@[simp] theorem enterEmergency_answersOf (d : Device) : (s.enterEmergency).answersOf d = s.answersOf d := by
  cases d <;> rfl
@[simp] theorem setRequests_answersOf (l : List Request) (d : Device) : (s.setRequests l).answersOf d = s.answersOf d := by
  cases d <;> rfl
@[simp] theorem countDraw_answersOf (d : Device) : (s.countDraw).answersOf d = s.answersOf d := by
  cases d <;> rfl

@[simp] theorem answer_romRead (r : Response) (o : Nat) :
    (s.answer r).romRead o = s.romRead o := rfl
@[simp] theorem answer_ramRead (r : Response) (o : Nat) :
    (s.answer r).ramRead o = s.ramRead o := rfl
@[simp] theorem answer_wavRead (r : Response) (j : Bank) (o : Nat) :
    (s.answer r).wavRead j o = s.wavRead j o := rfl
@[simp] theorem answer_bank (r : Response) (j : Bank) :
    (s.answer r).bank j = s.bank j := rfl

@[simp] theorem emit_romRead (e : LogEvent) (o : Nat) :
    (s.emit e).romRead o = s.romRead o := rfl
@[simp] theorem emit_ramRead (e : LogEvent) (o : Nat) :
    (s.emit e).ramRead o = s.ramRead o := rfl
@[simp] theorem emit_wavRead (e : LogEvent) (j : Bank) (o : Nat) :
    (s.emit e).wavRead j o = s.wavRead j o := rfl
@[simp] theorem emit_bank (e : LogEvent) (j : Bank) :
    (s.emit e).bank j = s.bank j := rfl

@[simp] theorem record_romRead (e : DevEvent) (o : Nat) :
    (s.record e).romRead o = s.romRead o := rfl
@[simp] theorem record_ramRead (e : DevEvent) (o : Nat) :
    (s.record e).ramRead o = s.ramRead o := rfl
@[simp] theorem record_wavRead (e : DevEvent) (j : Bank) (o : Nat) :
    (s.record e).wavRead j o = s.wavRead j o := rfl
@[simp] theorem record_bank (e : DevEvent) (j : Bank) :
    (s.record e).bank j = s.bank j := rfl

@[simp] theorem raise_romRead (r : FaultRecord) (o : Nat) :
    (s.raise r).romRead o = s.romRead o := rfl
@[simp] theorem raise_ramRead (r : FaultRecord) (o : Nat) :
    (s.raise r).ramRead o = s.ramRead o := rfl
@[simp] theorem raise_wavRead (r : FaultRecord) (j : Bank) (o : Nat) :
    (s.raise r).wavRead j o = s.wavRead j o := rfl
@[simp] theorem raise_bank (r : FaultRecord) (j : Bank) :
    (s.raise r).bank j = s.bank j := rfl

@[simp] theorem setRam_romRead (m : Memory) (o : Nat) :
    (s.setRam m).romRead o = s.romRead o := rfl
@[simp] theorem setRam_wavRead (m : Memory) (j : Bank) (o : Nat) :
    (s.setRam m).wavRead j o = s.wavRead j o := rfl
@[simp] theorem setRam_bank (m : Memory) (j : Bank) :
    (s.setRam m).bank j = s.bank j := rfl

@[simp] theorem setBank_romRead (k : Bank) (m : Memory) (o : Nat) :
    (s.setBank k m).romRead o = s.romRead o := rfl
@[simp] theorem setBank_ramRead (k : Bank) (m : Memory) (o : Nat) :
    (s.setBank k m).ramRead o = s.ramRead o := rfl

@[simp] theorem loadImage_ramRead (o : Nat) :
    (s.loadImage).ramRead o = s.ramRead o := rfl
@[simp] theorem loadImage_wavRead (j : Bank) (o : Nat) :
    (s.loadImage).wavRead j o = s.wavRead j o := rfl
@[simp] theorem loadImage_bank (j : Bank) :
    (s.loadImage).bank j = s.bank j := rfl

@[simp] theorem setDebug_romRead (b : Bool) (o : Nat) :
    (s.setDebug b).romRead o = s.romRead o := rfl
@[simp] theorem setDebug_ramRead (b : Bool) (o : Nat) :
    (s.setDebug b).ramRead o = s.ramRead o := rfl
@[simp] theorem setDebug_wavRead (b : Bool) (j : Bank) (o : Nat) :
    (s.setDebug b).wavRead j o = s.wavRead j o := rfl
@[simp] theorem setDebug_bank (b : Bool) (j : Bank) :
    (s.setDebug b).bank j = s.bank j := rfl

@[simp] theorem enterEmergency_romRead (o : Nat) :
    (s.enterEmergency).romRead o = s.romRead o := rfl
@[simp] theorem enterEmergency_ramRead (o : Nat) :
    (s.enterEmergency).ramRead o = s.ramRead o := rfl
@[simp] theorem enterEmergency_wavRead (j : Bank) (o : Nat) :
    (s.enterEmergency).wavRead j o = s.wavRead j o := rfl
@[simp] theorem enterEmergency_bank (j : Bank) :
    (s.enterEmergency).bank j = s.bank j := rfl

@[simp] theorem setRequests_romRead (l : List Request) (o : Nat) :
    (s.setRequests l).romRead o = s.romRead o := rfl
@[simp] theorem setRequests_ramRead (l : List Request) (o : Nat) :
    (s.setRequests l).ramRead o = s.ramRead o := rfl
@[simp] theorem setRequests_wavRead (l : List Request) (j : Bank) (o : Nat) :
    (s.setRequests l).wavRead j o = s.wavRead j o := rfl
@[simp] theorem setRequests_bank (l : List Request) (j : Bank) :
    (s.setRequests l).bank j = s.bank j := rfl

@[simp] theorem countDraw_romRead (o : Nat) :
    (s.countDraw).romRead o = s.romRead o := rfl
@[simp] theorem countDraw_ramRead (o : Nat) :
    (s.countDraw).ramRead o = s.ramRead o := rfl
@[simp] theorem countDraw_wavRead (j : Bank) (o : Nat) :
    (s.countDraw).wavRead j o = s.wavRead j o := rfl
@[simp] theorem countDraw_bank (j : Bank) :
    (s.countDraw).bank j = s.bank j := rfl

end Sys2Proof.Machine.State
end

