-- ==== Sys2Proof/Laws/Ops.lean ====
section
/-!
SUPPORT. One spec lemma per shared operation: the storage reads under every update, the device calls, the bank sample,
the observation channel, and what `transact` lets through.
-/

namespace Sys2Proof.Machine

namespace State

variable (s : State)

/-! ### Storage reads depend on nothing but their array and the startup -/

theorem romRead_congr {s t : State} (h : t.rom = s.rom) (hs : t.startup = s.startup) (o : Nat) :
    t.romRead o = s.romRead o := by
  simp [romRead, h, hs]

theorem ramRead_congr {s t : State} (h : t.ram = s.ram) (hs : t.startup = s.startup) (o : Nat) :
    t.ramRead o = s.ramRead o := by
  simp [ramRead, h, hs]

theorem bank_congr {s t : State} (h : t.wav = s.wav) (k : Bank) : t.bank k = s.bank k := by
  simp [bank, h]

theorem wavRead_congr {s t : State} (h : t.wav = s.wav) (hs : t.startup = s.startup) (k : Bank) (o : Nat) :
    t.wavRead k o = s.wavRead k o := by
  simp [wavRead, bank_congr h, hs]

/-- A cell that nothing has written reads as the startup's draw. -/
theorem ramRead_unwritten {o : Nat} (h : s.ram.read? o = none) :
    s.ramRead o = Config.startByte s.startup (.ram o) := by
  simp [ramRead, h]

theorem ramRead_written {o : Nat} {v : Byte} (h : s.ram.read? o = some v) : s.ramRead o = v := by
  simp [ramRead, h]

theorem wavRead_unwritten {k : Bank} {o : Nat} (h : (s.bank k).read? o = none) :
    s.wavRead k o = Config.startByte s.startup (.wav k o) := by
  simp [wavRead, h]

theorem wavRead_written {k : Bank} {o : Nat} {v : Byte} (h : (s.bank k).read? o = some v) : s.wavRead k o = v := by
  simp [wavRead, h]

/-! ### Storage writes -/

@[simp] theorem bank_setBank (k j : Bank) (m : Memory) :
    (s.setBank k m).bank j = if j = k then m else s.bank j := by
  by_cases h : j = k
  · subst h
    simp [bank, setBank]
  · have hn : k.toNat ≠ j.toNat := fun e => h (BitVec.eq_of_toNat_eq e.symm)
    simp [bank, setBank, hn, h]

@[simp] theorem ramWrite_ramRead (o p : Nat) (v : Byte) :
    (s.ramWrite o v).ramRead p = if p = o then v else s.ramRead p := by
  by_cases h : p = o <;> simp [ramRead, ramWrite, Memory.read?_write, h]

@[simp] theorem ramWrite_romRead (o p : Nat) (v : Byte) : (s.ramWrite o v).romRead p = s.romRead p := rfl

@[simp] theorem ramWrite_wavRead (o : Nat) (v : Byte) (k : Bank) (p : Nat) :
    (s.ramWrite o v).wavRead k p = s.wavRead k p := rfl

@[simp] theorem ramWrite_bank (o : Nat) (v : Byte) (k : Bank) : (s.ramWrite o v).bank k = s.bank k := rfl

/-- The four banks are independent: a write at `(k, o)` is seen at `(k, o)` and nowhere else (R154). -/
@[simp] theorem wavWrite_wavRead (k j : Bank) (o p : Nat) (v : Byte) :
    (s.wavWrite k o v).wavRead j p = if j = k ∧ p = o then v else s.wavRead j p := by
  by_cases h : j = k
  · subst h
    by_cases hp : p = o <;> simp [wavRead, wavWrite, Memory.read?_write, hp]
  · simp [wavRead, wavWrite, h]

@[simp] theorem wavWrite_bank (k j : Bank) (o : Nat) (v : Byte) :
    (s.wavWrite k o v).bank j = if j = k then (s.bank k).write o v else s.bank j := by
  simp [wavWrite]

@[simp] theorem wavWrite_romRead (k : Bank) (o p : Nat) (v : Byte) : (s.wavWrite k o v).romRead p = s.romRead p := rfl

@[simp] theorem wavWrite_ramRead (k : Bank) (o p : Nat) (v : Byte) : (s.wavWrite k o v).ramRead p = s.ramRead p := rfl

/-! ### Device calls -/

theorem answersOf_pia : s.answersOf .pia = s.piaAnswers := rfl

theorem answersOf_fdc : s.answersOf .fdc = s.fdcAnswers := rfl

theorem deviceAnswer_listed {d : Device} {v : Byte} {rest : List Byte} (i : Byte) (h : s.answersOf d = v :: rest) :
    s.deviceAnswer d i = v := by
  simp [deviceAnswer, h]

theorem deviceAnswer_drawn {d : Device} (i : Byte) (h : s.answersOf d = []) :
    s.deviceAnswer d i = Config.deviceAnswer s.draws d i := by
  simp [deviceAnswer, h]

/-- A call takes one answer of the called device and no answer of the other one. -/
@[simp] theorem takeAnswer_answersOf (d e : Device) :
    (s.takeAnswer d).answersOf e = if e = d then (s.answersOf d).tail else s.answersOf e := by
  unfold takeAnswer
  cases h : s.answersOf d with
  | nil => cases d <;> cases e <;> simp_all [answersOf]
  | cons v rest => simp

/-- Everything that taking an answer changes: the listed answers and the count of draws. -/
theorem takeAnswer_eq (d : Device) :
    s.takeAnswer d = { s with
      piaAnswers := (s.takeAnswer d).piaAnswers, fdcAnswers := (s.takeAnswer d).fdcAnswers,
      draws := (s.takeAnswer d).draws } := by
  unfold takeAnswer
  cases h : s.answersOf d with
  | nil => rfl
  | cons v rest => cases d <;> rfl

@[simp] theorem devRead_value (d : Device) (i : Byte) : (s.devRead d i).1 = s.deviceAnswer d i := rfl

@[simp] theorem devRead_history (d : Device) (i : Byte) :
    (s.devRead d i).2.history = s.history ++ [.devRd d i (s.deviceAnswer d i)] := by
  simp only [devRead, record_history]
  rw [takeAnswer_eq]

@[simp] theorem devRead_answersOf (d e : Device) (i : Byte) :
    (s.devRead d i).2.answersOf e = if e = d then (s.answersOf d).tail else s.answersOf e := by
  rw [← takeAnswer_answersOf]
  rfl

/-- A listed answer is used up without a draw; with none listed one draw is counted. -/
@[simp] theorem devRead_draws (d : Device) (i : Byte) :
    (s.devRead d i).2.draws = s.draws + if s.answersOf d = [] then 1 else 0 := by
  simp only [devRead, record_draws]
  unfold takeAnswer
  cases h : s.answersOf d with
  | nil => simp
  | cons v rest => cases d <;> simp [setAnswers]

@[simp] theorem sampleBank_bank : s.sampleBank.1 = bankOf (s.deviceAnswer .pia 0x00#8) := rfl

theorem sampleBank_state : s.sampleBank.2 = (s.devRead .pia 0x00#8).2 := rfl

@[simp] theorem devRead_cfg (d : Device) (i : Byte) : (s.devRead d i).2.cfg = s.cfg := by
  simp only [devRead, record_cfg]
  rw [takeAnswer_eq]

@[simp] theorem devRead_booted (d : Device) (i : Byte) : (s.devRead d i).2.booted = s.booted := by
  simp only [devRead, record_booted]
  rw [takeAnswer_eq]

@[simp] theorem devRead_rom (d : Device) (i : Byte) : (s.devRead d i).2.rom = s.rom := by
  simp only [devRead, record_rom]
  rw [takeAnswer_eq]

@[simp] theorem devRead_ram (d : Device) (i : Byte) : (s.devRead d i).2.ram = s.ram := by
  simp only [devRead, record_ram]
  rw [takeAnswer_eq]

@[simp] theorem devRead_wav (d : Device) (i : Byte) : (s.devRead d i).2.wav = s.wav := by
  simp only [devRead, record_wav]
  rw [takeAnswer_eq]

@[simp] theorem devRead_debug (d : Device) (i : Byte) : (s.devRead d i).2.debug = s.debug := by
  simp only [devRead, record_debug]
  rw [takeAnswer_eq]

@[simp] theorem devRead_emergency (d : Device) (i : Byte) : (s.devRead d i).2.emergency = s.emergency := by
  simp only [devRead, record_emergency]
  rw [takeAnswer_eq]

@[simp] theorem devRead_fault (d : Device) (i : Byte) : (s.devRead d i).2.fault = s.fault := by
  simp only [devRead, record_fault]
  rw [takeAnswer_eq]

@[simp] theorem devRead_responses (d : Device) (i : Byte) : (s.devRead d i).2.responses = s.responses := by
  simp only [devRead, record_responses]
  rw [takeAnswer_eq]

@[simp] theorem devRead_log (d : Device) (i : Byte) : (s.devRead d i).2.log = s.log := by
  simp only [devRead, record_log]
  rw [takeAnswer_eq]

@[simp] theorem devRead_requests (d : Device) (i : Byte) : (s.devRead d i).2.requests = s.requests := by
  simp only [devRead, record_requests]
  rw [takeAnswer_eq]

@[simp] theorem devRead_startup (d : Device) (i : Byte) : (s.devRead d i).2.startup = s.startup := by
  simp only [devRead, record_startup]
  rw [takeAnswer_eq]

@[simp] theorem devRead_romRead (d : Device) (i : Byte) (o : Nat) : (s.devRead d i).2.romRead o = s.romRead o :=
  romRead_congr (devRead_rom s d i) (devRead_startup s d i) o

@[simp] theorem devRead_ramRead (d : Device) (i : Byte) (o : Nat) : (s.devRead d i).2.ramRead o = s.ramRead o :=
  ramRead_congr (devRead_ram s d i) (devRead_startup s d i) o

@[simp] theorem devRead_wavRead (d : Device) (i : Byte) (k : Bank) (o : Nat) : (s.devRead d i).2.wavRead k o = s.wavRead k o :=
  wavRead_congr (devRead_wav s d i) (devRead_startup s d i) k o

@[simp] theorem devRead_bank (d : Device) (i : Byte) (k : Bank) : (s.devRead d i).2.bank k = s.bank k :=
  bank_congr (devRead_wav s d i) k

/-! ### The observation channel changes nothing else (R139) -/

/-- `annotate` appends to the log or does nothing. -/
theorem annotate_eq (a : Addr) : s.annotate a = { s with log := (s.annotate a).log } := by
  unfold annotate
  split <;> rfl

/-- `logAccess` appends to the log or does nothing. -/
theorem logAccess_eq (op : BusOp) (a : Addr) (v : Byte) :
    s.logAccess op a v = { s with log := (s.logAccess op a v).log } := by
  unfold logAccess
  split <;> rfl

@[simp] theorem annotate_cfg (a : Addr) : (s.annotate a).cfg = s.cfg := by rw [annotate_eq]
@[simp] theorem annotate_booted (a : Addr) : (s.annotate a).booted = s.booted := by rw [annotate_eq]
@[simp] theorem annotate_rom (a : Addr) : (s.annotate a).rom = s.rom := by rw [annotate_eq]
@[simp] theorem annotate_ram (a : Addr) : (s.annotate a).ram = s.ram := by rw [annotate_eq]
@[simp] theorem annotate_wav (a : Addr) : (s.annotate a).wav = s.wav := by rw [annotate_eq]
@[simp] theorem annotate_debug (a : Addr) : (s.annotate a).debug = s.debug := by rw [annotate_eq]
@[simp] theorem annotate_emergency (a : Addr) : (s.annotate a).emergency = s.emergency := by rw [annotate_eq]
@[simp] theorem annotate_fault (a : Addr) : (s.annotate a).fault = s.fault := by rw [annotate_eq]
@[simp] theorem annotate_history (a : Addr) : (s.annotate a).history = s.history := by rw [annotate_eq]
@[simp] theorem annotate_responses (a : Addr) : (s.annotate a).responses = s.responses := by rw [annotate_eq]
@[simp] theorem annotate_requests (a : Addr) : (s.annotate a).requests = s.requests := by rw [annotate_eq]
@[simp] theorem annotate_piaAnswers (a : Addr) : (s.annotate a).piaAnswers = s.piaAnswers := by rw [annotate_eq]
@[simp] theorem annotate_fdcAnswers (a : Addr) : (s.annotate a).fdcAnswers = s.fdcAnswers := by rw [annotate_eq]
@[simp] theorem annotate_startup (a : Addr) : (s.annotate a).startup = s.startup := by rw [annotate_eq]
@[simp] theorem annotate_draws (a : Addr) : (s.annotate a).draws = s.draws := by rw [annotate_eq]

@[simp] theorem logAccess_cfg (op : BusOp) (a : Addr) (v : Byte) : (s.logAccess op a v).cfg = s.cfg := by
  rw [logAccess_eq]
@[simp] theorem logAccess_booted (op : BusOp) (a : Addr) (v : Byte) : (s.logAccess op a v).booted = s.booted := by
  rw [logAccess_eq]
@[simp] theorem logAccess_rom (op : BusOp) (a : Addr) (v : Byte) : (s.logAccess op a v).rom = s.rom := by
  rw [logAccess_eq]
@[simp] theorem logAccess_ram (op : BusOp) (a : Addr) (v : Byte) : (s.logAccess op a v).ram = s.ram := by
  rw [logAccess_eq]
@[simp] theorem logAccess_wav (op : BusOp) (a : Addr) (v : Byte) : (s.logAccess op a v).wav = s.wav := by
  rw [logAccess_eq]
@[simp] theorem logAccess_debug (op : BusOp) (a : Addr) (v : Byte) : (s.logAccess op a v).debug = s.debug := by
  rw [logAccess_eq]
@[simp] theorem logAccess_emergency (op : BusOp) (a : Addr) (v : Byte) : (s.logAccess op a v).emergency = s.emergency := by
  rw [logAccess_eq]
@[simp] theorem logAccess_fault (op : BusOp) (a : Addr) (v : Byte) : (s.logAccess op a v).fault = s.fault := by
  rw [logAccess_eq]
@[simp] theorem logAccess_history (op : BusOp) (a : Addr) (v : Byte) : (s.logAccess op a v).history = s.history := by
  rw [logAccess_eq]
@[simp] theorem logAccess_responses (op : BusOp) (a : Addr) (v : Byte) : (s.logAccess op a v).responses = s.responses := by
  rw [logAccess_eq]
@[simp] theorem logAccess_requests (op : BusOp) (a : Addr) (v : Byte) : (s.logAccess op a v).requests = s.requests := by
  rw [logAccess_eq]
@[simp] theorem logAccess_piaAnswers (op : BusOp) (a : Addr) (v : Byte) : (s.logAccess op a v).piaAnswers = s.piaAnswers := by
  rw [logAccess_eq]
@[simp] theorem logAccess_fdcAnswers (op : BusOp) (a : Addr) (v : Byte) : (s.logAccess op a v).fdcAnswers = s.fdcAnswers := by
  rw [logAccess_eq]
@[simp] theorem logAccess_startup (op : BusOp) (a : Addr) (v : Byte) : (s.logAccess op a v).startup = s.startup := by
  rw [logAccess_eq]
@[simp] theorem logAccess_draws (op : BusOp) (a : Addr) (v : Byte) : (s.logAccess op a v).draws = s.draws := by
  rw [logAccess_eq]

@[simp] theorem annotate_romRead (a : Addr) (p : Nat) : (s.annotate a).romRead p = s.romRead p :=
  romRead_congr (annotate_rom s a) (annotate_startup s a) p
@[simp] theorem annotate_ramRead (a : Addr) (p : Nat) : (s.annotate a).ramRead p = s.ramRead p :=
  ramRead_congr (annotate_ram s a) (annotate_startup s a) p
@[simp] theorem annotate_wavRead (a : Addr) (k : Bank) (p : Nat) : (s.annotate a).wavRead k p = s.wavRead k p :=
  wavRead_congr (annotate_wav s a) (annotate_startup s a) k p
@[simp] theorem annotate_bank (a : Addr) (k : Bank) : (s.annotate a).bank k = s.bank k :=
  bank_congr (annotate_wav s a) k
@[simp] theorem annotate_answersOf (a : Addr) (d : Device) : (s.annotate a).answersOf d = s.answersOf d := by
  cases d <;> simp [answersOf]
@[simp] theorem logAccess_romRead (op : BusOp) (a : Addr) (v : Byte) (p : Nat) : (s.logAccess op a v).romRead p = s.romRead p :=
  romRead_congr (logAccess_rom s op a v) (logAccess_startup s op a v) p
@[simp] theorem logAccess_ramRead (op : BusOp) (a : Addr) (v : Byte) (p : Nat) : (s.logAccess op a v).ramRead p = s.ramRead p :=
  ramRead_congr (logAccess_ram s op a v) (logAccess_startup s op a v) p
@[simp] theorem logAccess_wavRead (op : BusOp) (a : Addr) (v : Byte) (k : Bank) (p : Nat) :
    (s.logAccess op a v).wavRead k p = s.wavRead k p :=
  wavRead_congr (logAccess_wav s op a v) (logAccess_startup s op a v) k p
@[simp] theorem logAccess_bank (op : BusOp) (a : Addr) (v : Byte) (k : Bank) : (s.logAccess op a v).bank k = s.bank k :=
  bank_congr (logAccess_wav s op a v) k
@[simp] theorem logAccess_answersOf (op : BusOp) (a : Addr) (v : Byte) (d : Device) : (s.logAccess op a v).answersOf d = s.answersOf d := by
  cases d <;> simp [answersOf]

end State

/-! ### What `transact` lets through -/

/-- Everything `transact` can do when it answers a next state. -/
theorem transact_eq_next {b : Bool} {s t : State} {body : State → Host.Outcome State Fault Refusal} :
    transact b s body = .next t ↔
      s.booted = true ∧ s.fault = none ∧ (s.emergency = true → b = true) ∧ body s = .next t := by
  unfold transact
  cases s.booted <;> cases s.fault <;> cases s.emergency <;> cases b <;> simp

/-- With ROM loaded, no fault marked and the mode letting it through, the transaction performs its rule. -/
theorem transact_open {b : Bool} {s : State} (body : State → Host.Outcome State Fault Refusal)
    (hb : s.booted = true) (hf : s.fault = none) (he : s.emergency = true → b = true) :
    transact b s body = body s := by
  unfold transact
  rw [hb, hf]
  cases h : s.emergency <;> cases b <;> simp_all

/-- After a fault nothing has a step (R205). -/
theorem transact_faulted {b : Bool} {s : State} {r : FaultRecord} (body : State → Host.Outcome State Fault Refusal)
    (hb : s.booted = true) (hf : s.fault = some r) : transact b s body = .fault (.stuckFaulted r) := by
  simp [transact, hb, hf]

/-- In emergency only NM goes on (R208). -/
theorem transact_emergency {s : State} (body : State → Host.Outcome State Fault Refusal)
    (hb : s.booted = true) (hf : s.fault = none) (he : s.emergency = true) :
    transact false s body = .fault .stuckEmergency := by
  simp [transact, hb, hf, he]

/-- Before ROM is loaded no transaction has a step (R242). -/
theorem transact_unbooted {b : Bool} {s : State} (body : State → Host.Outcome State Fault Refusal)
    (hb : s.booted = false) : transact b s body = .refused .romNotLoaded := by
  simp [transact, hb]

end Sys2Proof.Machine
end

