-- ==== Sys2Proof/Laws/Region.lean ====
section
/-!
SUPPORT. What the range test, the region decode and the label lookup say of an address.
-/

namespace Sys2Proof.Machine

/-- The range test on numbers. -/
theorem inRange_iff {lo hi a : Addr} : inRange lo hi a = true ↔ lo.toNat ≤ a.toNat ∧ a.toNat ≤ hi.toNat := by
  simp [inRange, BitVec.le_def]

theorem inRange_eq_decide (lo hi a : Addr) :
    inRange lo hi a = decide (lo.toNat ≤ a.toNat ∧ a.toNat ≤ hi.toNat) := by
  rw [Bool.eq_iff_iff, inRange_iff, decide_eq_true_eq]

/-- The page test on numbers: the 256 addresses from `PAGE << 8` on (R102). -/
theorem pageOf_eq_iff {a : Addr} {p : Byte} :
    pageOf a = p ↔ p.toNat * 256 ≤ a.toNat ∧ a.toNat ≤ p.toNat * 256 + 255 := by
  rw [← BitVec.toNat_inj]
  simp only [pageOf, BitVec.extractLsb'_toNat, Nat.shiftRight_eq_div_pow]
  have := a.isLt
  omega

/-- The eight tests of R100 are membership in the eight ranges of R46 (c), in the same order. -/
theorem regionTests_eq_ranges (c : Cfg) (a : Addr) :
    (regionTests c a).map Prod.snd = c.ranges.map fun p => decide (p.1 ≤ a.toNat ∧ a.toNat ≤ p.2) := by
  simp [regionTests, Cfg.ranges, inRange_eq_decide, pageOf_eq_iff]

/-- `regionOf` is the first of the eight tests that holds, else OPEN (R103). -/
theorem regionOf_eq_find (c : Cfg) (a : Addr) :
    regionOf c a = (((regionTests c a).find? fun q => q.2).map Prod.fst).getD .openBus := by
  unfold regionOf regionTests
  simp only [List.find?]
  repeat' split
  all_goals simp_all

/-- Inside its range an offset needs no wrap (R78). -/
theorem offsetFrom_of_inRange {lo hi a : Addr} (h : inRange lo hi a = true) :
    offsetFrom lo a = a.toNat - lo.toNat := by
  obtain ⟨h1, -⟩ := inRange_iff.mp h
  simp only [offsetFrom, BitVec.toNat_sub]
  have := a.isLt
  omega

/-- An offset inside a range lies below the range's size (R78, R156). -/
theorem offsetFrom_lt {lo hi a : Addr} (h : inRange lo hi a = true) :
    (offsetFrom lo a : Int) < (hi.toNat : Int) - lo.toNat + 1 := by
  rw [offsetFrom_of_inRange h]
  obtain ⟨h1, h2⟩ := inRange_iff.mp h
  omega

theorem regionOf_rom {c : Cfg} {a : Addr} (h : regionOf c a = .rom) : inRange c.romStart c.romEnd a = true := by
  unfold regionOf at h
  by_contra hn
  rw [if_neg hn] at h
  repeat' split at h
  all_goals cases h

theorem regionOf_ram {c : Cfg} {a : Addr} (h : regionOf c a = .ram) : inRange c.ramStart c.ramEnd a = true := by
  unfold regionOf at h
  split at h
  · cases h
  · by_contra hn
    rw [if_neg hn] at h
    repeat' split at h
    all_goals cases h

theorem regionOf_wav {c : Cfg} {a : Addr} (h : regionOf c a = .wav) : inRange c.wavStart c.wavEnd a = true := by
  unfold regionOf at h
  split at h
  · cases h
  · split at h
    · cases h
    · by_contra hn
      rw [if_neg hn] at h
      repeat' split at h
      all_goals cases h

/-- A BUS-port WAV offset is always inside the bank (R156). -/
theorem wavOffset_lt {c : Cfg} {a : Addr} (h : regionOf c a = .wav) :
    (offsetFrom c.wavStart a : Int) < c.bankSize :=
  offsetFrom_lt (regionOf_wav h)

theorem ramOffset_lt {c : Cfg} {a : Addr} (h : regionOf c a = .ram) :
    (offsetFrom c.ramStart a : Int) < c.ramSize :=
  offsetFrom_lt (regionOf_ram h)

theorem romOffset_lt {c : Cfg} {a : Addr} (h : regionOf c a = .rom) :
    (offsetFrom c.romStart a : Int) < c.romSize :=
  offsetFrom_lt (regionOf_rom h)

/-- An entry named by `labelOf` is in NAMED_TABLE, at exactly the address asked for (R171). -/
theorem namedIndex?_some {c : Cfg} {a : Addr} {i : Nat} (h : namedIndex? c a = some i) :
    ∃ e, c.namedTable[i]? = some e ∧ e.1 = a := by
  obtain ⟨hi, he, -⟩ := List.findIdx?_eq_some_iff_getElem.mp h
  exact ⟨c.namedTable[i], by simp [hi], by simpa using he⟩

end Sys2Proof.Machine
end

