-- ==== Sys2Proof/Laws/Exec.lean ====
section
/-!
SUPPORT. What each meaning, each request and one step can do when it answers a next state, said once.
-/

namespace Sys2Proof.Machine

variable {s t : State}

/-! ### The meanings, when they may run -/

theorem State.Ready.names (h : s.Ready) : s.Names := ⟨h.1, h.2.1⟩

theorem transact_ready (b : Bool) (body : State → Host.Outcome State Fault Refusal) (h : s.Ready) :
    transact b s body = body s :=
  transact_open body h.1 h.2.1 (by simp [h.2.2])

theorem execRd_ready (a : Addr) (h : s.Ready) :
    execRd a s =
      .next ((((busRead a s).2.annotate a).logAccess .rd a (busRead a s).1).answer (.byte (busRead a s).1)) :=
  transact_ready _ _ h

theorem execWr_ready (a : Addr) (v : Byte) (h : s.Ready) :
    execWr a v s = .next (((busWrite a v s).annotate a).logAccess .wr a v) :=
  transact_ready _ _ h

theorem execNm_names (a : Addr) (h : s.Names) : execNm a s = .next (s.answer (.label (labelOf s.cfg a))) :=
  transact_open _ h.1 h.2 fun _ => rfl

theorem execBr_ready (k : Bank) (o : Addr) (h : s.Ready) :
    execBr k o s =
      if offsetOutside s.cfg o then .next (s.raise (.offsetFault k o))
      else .next (s.answer (.byte (s.wavRead k o.toNat))) :=
  transact_ready _ _ h

theorem execBw_ready (k : Bank) (o : Addr) (v : Byte) (h : s.Ready) :
    execBw k o v s =
      if offsetOutside s.cfg o then .next (s.raise (.offsetFault k o)) else .next (s.wavWrite k o.toNat v) :=
  transact_ready _ _ h

/-! ### The meanings, inverted -/

/-- Every transaction but NM that has a step had its mode and mark clear. -/
theorem transact_next_ready {body : State → Host.Outcome State Fault Refusal} (h : transact false s body = .next t) :
    s.Ready ∧ body s = .next t := by
  obtain ⟨hb, hf, he, hn⟩ := transact_eq_next.mp h
  exact ⟨⟨hb, hf, by simpa using he⟩, hn⟩

theorem execRd_next {a : Addr} (h : execRd a s = .next t) :
    s.Ready ∧
      t = (((busRead a s).2.annotate a).logAccess .rd a (busRead a s).1).answer (.byte (busRead a s).1) := by
  obtain ⟨hr, hn⟩ := transact_next_ready h
  cases hn
  exact ⟨hr, rfl⟩

theorem execWr_next {a : Addr} {v : Byte} (h : execWr a v s = .next t) :
    s.Ready ∧ t = ((busWrite a v s).annotate a).logAccess .wr a v := by
  obtain ⟨hr, hn⟩ := transact_next_ready h
  cases hn
  exact ⟨hr, rfl⟩

theorem execNm_next {a : Addr} (h : execNm a s = .next t) :
    s.Names ∧ t = s.answer (.label (labelOf s.cfg a)) := by
  obtain ⟨hb, hf, -, hn⟩ := transact_eq_next.mp h
  cases hn
  exact ⟨⟨hb, hf⟩, rfl⟩

theorem execBr_next {k : Bank} {o : Addr} (h : execBr k o s = .next t) :
    s.Ready ∧ ((offsetOutside s.cfg o = true ∧ t = s.raise (.offsetFault k o)) ∨
      (offsetOutside s.cfg o = false ∧ t = s.answer (.byte (s.wavRead k o.toNat)))) := by
  obtain ⟨hr, hn⟩ := transact_next_ready h
  refine ⟨hr, ?_⟩
  split at hn <;> cases hn
  · exact .inl ⟨‹_›, rfl⟩
  · exact .inr ⟨eq_false_of_ne_true ‹¬_›, rfl⟩

theorem execBw_next {k : Bank} {o : Addr} {v : Byte} (h : execBw k o v s = .next t) :
    s.Ready ∧ ((offsetOutside s.cfg o = true ∧ t = s.raise (.offsetFault k o)) ∨
      (offsetOutside s.cfg o = false ∧ t = s.wavWrite k o.toNat v)) := by
  obtain ⟨hr, hn⟩ := transact_next_ready h
  refine ⟨hr, ?_⟩
  split at hn <;> cases hn
  · exact .inl ⟨‹_›, rfl⟩
  · exact .inr ⟨eq_false_of_ne_true ‹¬_›, rfl⟩

theorem badOp_next {w : ReqWord} (h : badOp w s = .next t) : s.Ready ∧ t = s.raise (.badOp w) := by
  obtain ⟨hr, hn⟩ := transact_next_ready h
  cases hn
  exact ⟨hr, rfl⟩

/-! ### What a read leaves alone -/

/-- The case split of RD changes the history, the answers, the draws and the log, and nothing else. -/
theorem busRead_eq (a : Addr) (s : State) :
    (busRead a s).2 = { s with
      history := (busRead a s).2.history, log := (busRead a s).2.log,
      piaAnswers := (busRead a s).2.piaAnswers, fdcAnswers := (busRead a s).2.fdcAnswers,
      draws := (busRead a s).2.draws } := by
  have hd : ∀ d i, (s.devRead d i).2 = { s with
      history := (s.devRead d i).2.history, log := (s.devRead d i).2.log,
      piaAnswers := (s.devRead d i).2.piaAnswers, fdcAnswers := (s.devRead d i).2.fdcAnswers,
      draws := (s.devRead d i).2.draws } := by
    intro d i
    simp only [State.devRead]
    rw [State.takeAnswer_eq]
    rfl
  unfold busRead
  split <;> first | rfl | exact hd _ _

@[simp] theorem busRead_cfg (a : Addr) (s : State) : (busRead a s).2.cfg = s.cfg := by rw [busRead_eq]
@[simp] theorem busRead_booted (a : Addr) (s : State) : (busRead a s).2.booted = s.booted := by rw [busRead_eq]
@[simp] theorem busRead_rom (a : Addr) (s : State) : (busRead a s).2.rom = s.rom := by rw [busRead_eq]
@[simp] theorem busRead_ram (a : Addr) (s : State) : (busRead a s).2.ram = s.ram := by rw [busRead_eq]
@[simp] theorem busRead_wav (a : Addr) (s : State) : (busRead a s).2.wav = s.wav := by rw [busRead_eq]
@[simp] theorem busRead_debug (a : Addr) (s : State) : (busRead a s).2.debug = s.debug := by rw [busRead_eq]
@[simp] theorem busRead_emergency (a : Addr) (s : State) : (busRead a s).2.emergency = s.emergency := by rw [busRead_eq]
@[simp] theorem busRead_fault (a : Addr) (s : State) : (busRead a s).2.fault = s.fault := by rw [busRead_eq]
@[simp] theorem busRead_responses (a : Addr) (s : State) : (busRead a s).2.responses = s.responses := by rw [busRead_eq]
@[simp] theorem busRead_requests (a : Addr) (s : State) : (busRead a s).2.requests = s.requests := by rw [busRead_eq]
@[simp] theorem busRead_startup (a : Addr) (s : State) : (busRead a s).2.startup = s.startup := by rw [busRead_eq]

@[simp] theorem busRead_romRead (a : Addr) (s : State) (o : Nat) : (busRead a s).2.romRead o = s.romRead o :=
  State.romRead_congr (busRead_rom a s) (busRead_startup a s) o
@[simp] theorem busRead_ramRead (a : Addr) (s : State) (o : Nat) : (busRead a s).2.ramRead o = s.ramRead o :=
  State.ramRead_congr (busRead_ram a s) (busRead_startup a s) o
@[simp] theorem busRead_wavRead (a : Addr) (s : State) (k : Bank) (o : Nat) :
    (busRead a s).2.wavRead k o = s.wavRead k o :=
  State.wavRead_congr (busRead_wav a s) (busRead_startup a s) k o
@[simp] theorem busRead_bank (a : Addr) (s : State) (k : Bank) : (busRead a s).2.bank k = s.bank k :=
  State.bank_congr (busRead_wav a s) k

/-! ### What a write leaves alone -/

@[simp] theorem busWrite_cfg (a : Addr) (v : Byte) (s : State) : (busWrite a v s).cfg = s.cfg := by
  unfold busWrite
  split <;> simp [State.ramWrite, State.wavWrite, State.devWrite, State.sampleBank_state]
@[simp] theorem busWrite_booted (a : Addr) (v : Byte) (s : State) : (busWrite a v s).booted = s.booted := by
  unfold busWrite
  split <;> simp [State.ramWrite, State.wavWrite, State.devWrite, State.sampleBank_state]
@[simp] theorem busWrite_rom (a : Addr) (v : Byte) (s : State) : (busWrite a v s).rom = s.rom := by
  unfold busWrite
  split <;> simp [State.ramWrite, State.wavWrite, State.devWrite, State.sampleBank_state]
@[simp] theorem busWrite_debug (a : Addr) (v : Byte) (s : State) : (busWrite a v s).debug = s.debug := by
  unfold busWrite
  split <;> simp [State.ramWrite, State.wavWrite, State.devWrite, State.sampleBank_state]
@[simp] theorem busWrite_emergency (a : Addr) (v : Byte) (s : State) : (busWrite a v s).emergency = s.emergency := by
  unfold busWrite
  split <;> simp [State.ramWrite, State.wavWrite, State.devWrite, State.sampleBank_state]
@[simp] theorem busWrite_fault (a : Addr) (v : Byte) (s : State) : (busWrite a v s).fault = s.fault := by
  unfold busWrite
  split <;> simp [State.ramWrite, State.wavWrite, State.devWrite, State.sampleBank_state]
@[simp] theorem busWrite_responses (a : Addr) (v : Byte) (s : State) : (busWrite a v s).responses = s.responses := by
  unfold busWrite
  split <;> simp [State.ramWrite, State.wavWrite, State.devWrite, State.sampleBank_state]
@[simp] theorem busWrite_requests (a : Addr) (v : Byte) (s : State) : (busWrite a v s).requests = s.requests := by
  unfold busWrite
  split <;> simp [State.ramWrite, State.wavWrite, State.devWrite, State.sampleBank_state]
@[simp] theorem busWrite_startup (a : Addr) (v : Byte) (s : State) : (busWrite a v s).startup = s.startup := by
  unfold busWrite
  split <;> simp [State.ramWrite, State.wavWrite, State.devWrite, State.sampleBank_state]

/-! ### Every transaction -/

/-- A transaction that has a step had ROM loaded and no fault marked. -/
theorem exec_next_names {i : Instr} (h : exec i s = .next t) : s.Names := by
  cases i with
  | rd a => exact (execRd_next h).1.names
  | wr a v => exact (execWr_next h).1.names
  | nm a => exact (execNm_next h).1
  | br k o => exact (execBr_next h).1.names
  | bw k o v => exact (execBw_next h).1.names

/-- No transaction changes the configuration, ROM, a mode, the pending requests or the startup. -/
theorem exec_next_keeps {i : Instr} (h : exec i s = .next t) :
    t.cfg = s.cfg ∧ t.booted = s.booted ∧ t.rom = s.rom ∧ t.debug = s.debug ∧ t.emergency = s.emergency ∧
      t.requests = s.requests ∧ t.startup = s.startup := by
  cases i with
  | rd a => obtain ⟨-, rfl⟩ := execRd_next h; simp
  | wr a v => obtain ⟨-, rfl⟩ := execWr_next h; simp
  | nm a => obtain ⟨-, rfl⟩ := execNm_next h; simp
  | br k o => obtain ⟨-, ⟨-, rfl⟩ | ⟨-, rfl⟩⟩ := execBr_next h <;> simp
  | bw k o v => obtain ⟨-, ⟨-, rfl⟩ | ⟨-, rfl⟩⟩ := execBw_next h <;> simp [State.wavWrite]

theorem exec_unbooted (i : Instr) (hb : s.booted = false) : exec i s = .refused .romNotLoaded := by
  cases i <;> simp only [exec, execRd, execWr, execNm, execBr, execBw] <;> exact transact_unbooted _ hb

theorem exec_faulted {r : FaultRecord} (i : Instr) (hb : s.booted = true) (hf : s.fault = some r) :
    exec i s = .fault (.stuckFaulted r) := by
  cases i <;> simp only [exec, execRd, execWr, execNm, execBr, execBw] <;> exact transact_faulted _ hb hf

theorem exec_emergency {i : Instr} (hb : s.booted = true) (hf : s.fault = none) (he : s.emergency = true)
    (hn : ∀ a, i ≠ .nm a) : exec i s = .fault .stuckEmergency := by
  cases i with
  | nm a => exact absurd rfl (hn a)
  | rd a => simp only [exec, execRd]; exact transact_emergency _ hb hf he
  | wr a v => simp only [exec, execWr]; exact transact_emergency _ hb hf he
  | br k o => simp only [exec, execBr]; exact transact_emergency _ hb hf he
  | bw k o v => simp only [exec, execBw]; exact transact_emergency _ hb hf he

/-! ### Requests and steps -/

/-- Everything that performing a request can do when it answers a next state. -/
theorem perform_next {r : Request} (h : perform r s = .next t) :
    (∃ i, exec i s = .next t) ∨
    (∃ w e, decode w = .error e ∧ s.Ready ∧ t = s.raise (.badOp w)) ∨
    (s.booted = false ∧ s.cfg.wfImage = true ∧ t = s.loadImage) ∨
    (∃ b, t = s.setDebug b) ∨ (∃ l, t = s.setRequests l) ∨ t = s.enterEmergency ∨
    (∃ e, t = s.emit e) ∨ t = s := by
  cases r with
  | word w =>
    simp only [perform, execWord] at h
    split at h
    · exact .inl ⟨_, h⟩
    · obtain ⟨hr, rfl⟩ := badOp_next h
      exact .inr (.inl ⟨w, _, ‹_›, hr, rfl⟩)
  | memRead a n =>
    simp only [perform] at h
    split at h
    · exact .inl ⟨_, h⟩
    · cases h
  | memWrite a n v =>
    simp only [perform] at h
    split at h
    · exact .inl ⟨_, h⟩
    · cases h
  | loadRom =>
    simp only [perform, loadRom] at h
    split at h
    · cases h
    · split at h <;> cases h
      exact .inr (.inr (.inl ⟨eq_false_of_ne_true ‹¬_›, ‹_›, rfl⟩))
  | setDebug b => cases h; exact .inr (.inr (.inr (.inl ⟨b, rfl⟩)))
  | reportFault sp => cases h; exact .inr (.inr (.inr (.inr (.inl ⟨_, rfl⟩))))
  | setEmergency => cases h; exact .inr (.inr (.inr (.inr (.inr (.inl rfl)))))
  | traceHook k dest =>
    cases h
    unfold traceHook
    split
    · exact .inr (.inr (.inr (.inr (.inr (.inr (.inl ⟨_, rfl⟩))))))
    · exact .inr (.inr (.inr (.inr (.inr (.inr (.inr rfl))))))

/-- Everything one step can do when it answers a next state: wait, or perform the next request. -/
theorem step_next (h : step s = .next t) :
    (s.requests = [] ∧ s.fault = none ∧ t = s) ∨
    ∃ r rest, s.requests = r :: rest ∧ perform r (s.setRequests rest) = .next t := by
  unfold step at h
  split at h
  · unfold idle at h
    split at h <;> cases h
    exact .inl ⟨‹_›, ‹_›, rfl⟩
  · exact .inr ⟨_, _, ‹_›, h⟩

end Sys2Proof.Machine
end

