-- ==== Sys2Proof/Laws/PerInstr.lean ====
section
/-!
SUPPORT. The encoder against the opcode table of R81: the word of every instruction is of the row's port and matches the
row's match under the row's mask.
-/

namespace Sys2Proof.Laws

/-- A row of R81's opcode map: whether the port is BANK, the match and the mask. -/
structure TableRow where
  bankPort : Bool
  matchBits : Nat
  maskBits : Nat
deriving DecidableEq, Repr

/-- R81's row of an instruction. -/
def tableRow : Instr → TableRow
  | .rd _ => ⟨false, 0x0000000, 0x3000000⟩
  | .wr _ _ => ⟨false, 0x1000000, 0x3000000⟩
  | .nm _ => ⟨false, 0x2000000, 0x3000000⟩
  | .br _ _ => ⟨true, 0x0000000, 0xC000000⟩
  | .bw _ _ _ => ⟨true, 0x4000000, 0xC000000⟩

/-- A request word is of a row's port and matches it. -/
def RowMatches (r : TableRow) : ReqWord → Prop
  | .bus w => r.bankPort = false ∧ w &&& BitVec.ofNat 26 r.maskBits = BitVec.ofNat 26 r.matchBits
  | .bank w => r.bankPort = true ∧ w &&& BitVec.ofNat 28 r.maskBits = BitVec.ofNat 28 r.matchBits

namespace EncodesItsRow

/-- The word of the instruction matches its own row of the opcode map. -/
def Statement (i : Instr) : Prop := RowMatches (tableRow i) (encode i)

/-- A BUS word under the OP mask is its OP field in place. -/
theorem bus_masked (op : BitVec 2) (a : Addr) (d : Byte) :
    busWord op a d &&& 0x3000000#26 = busWord op 0#16 0#8 := by
  refine BitVec.eq_of_getLsbD_eq fun i hi => ?_
  simp only [busWord, BitVec.getLsbD_and, BitVec.getLsbD_append]
  interval_cases i <;> simp

/-- A BANK word under the OP2 mask is its OP2 field in place. -/
theorem bank_masked (op k : BitVec 2) (o : Addr) (d : Byte) :
    bankWord op k o d &&& 0xC000000#28 = bankWord op 0#2 0#16 0#8 := by
  refine BitVec.eq_of_getLsbD_eq fun i hi => ?_
  simp only [bankWord, BitVec.getLsbD_and, BitVec.getLsbD_append]
  interval_cases i <;> simp

theorem rd (a : Addr) : Statement (.rd a) :=
  ⟨rfl, (bus_masked _ _ _).trans (by simp [tableRow, busWord])⟩

theorem wr (a : Addr) (d : Byte) : Statement (.wr a d) :=
  ⟨rfl, (bus_masked _ _ _).trans (by simp [tableRow, busWord])⟩

theorem nm (a : Addr) : Statement (.nm a) :=
  ⟨rfl, (bus_masked _ _ _).trans (by simp [tableRow, busWord])⟩

theorem br (k : Bank) (o : Addr) : Statement (.br k o) :=
  ⟨rfl, (bank_masked _ _ _ _).trans (by simp [tableRow, bankWord])⟩

theorem bw (k : Bank) (o : Addr) (d : Byte) : Statement (.bw k o d) :=
  ⟨rfl, (bank_masked _ _ _ _).trans (by simp [tableRow, bankWord])⟩

end EncodesItsRow

end Sys2Proof.Laws
end

