-- ==== Sys2Proof/Tests/Slice0.lean ====
section
/-!
SUPPORT. The package's own tests: the encodings written out from the spec, the checks on ill-formed terms, at most two
small steps per transaction with the results of 95_test_vectors.md, and for every obligation that has hypotheses a
concrete state that meets them.
-/

open Sys2Proof Sys2Proof.Machine

namespace Sys2Proof.Tests

/-! ### Helpers -/

/-- The state after reset with some answers of the PIA model listed. -/
def withPia (answers : List Byte) : State := { State.reset with piaAnswers := answers }

/-- The state after reset with one request pending. -/
def asking (r : Request) : State := { State.reset with requests := [r] }

/-- The next state of an outcome, if there is one. -/
def nextOf : Host.Outcome State Fault Refusal → Option State
  | .next s => some s
  | .fault _ => none
  | .refused _ => none

/-- The fault of an outcome, if it is one. -/
def faultOf : Host.Outcome State Fault Refusal → Option Fault
  | .fault r => some r
  | .next _ => none
  | .refused _ => none

/-! ### Encodings, from the bit strings of spec/opcode_table.json and 95_test_vectors.md -/

/-- `00 aaaaaaaaaaaaaaaa xxxxxxxx`, L2.8: RD 0xFFFF. -/
theorem test_decode_rd : decode (.bus 0b00_1111111111111111_00000000#26) = .ok (.rd 0xFFFF#16) := by decide

/-- `01 aaaaaaaaaaaaaaaa dddddddd`, L2.8: WR 0xE203, 0x9C is 0x1E2039C. -/
theorem test_decode_wr : decode (.bus 0b01_1110001000000011_10011100#26) = .ok (.wr 0xE203#16 0x9C#8) := by decide

/-- `10 aaaaaaaaaaaaaaaa xxxxxxxx`, L2.8: NM 0xE205 with DATA 0xAB, which is ignored. -/
theorem test_decode_nm : decode (.bus 0b10_1110001000000101_10101011#26) = .ok (.nm 0xE205#16) := by decide

/-- `00 kk oooooooooooooooo xxxxxxxx`, L2.4a row 2: BR 2, 0x0010 is 0x2001000. -/
theorem test_decode_br : decode (.bank 0b00_10_0000000000010000_00000000#28) = .ok (.br 2#2 0x0010#16) := by decide

/-- `01 kk oooooooooooooooo dddddddd`, L2.4a row 6: BW 3, 0x3EFF, 0x01 is 0x73EFF01. -/
theorem test_decode_bw :
    decode (.bank 0b01_11_0011111011111111_00000001#28) = .ok (.bw 3#2 0x3EFF#16 0x01#8) := by decide

/-- R79: the reserved codes of both ports. -/
theorem test_decode_reserved :
    decode (.bus 0x3123456#26) = .error .busOp ∧ decode (.bank 0x8000000#28) = .error .bankOp2 ∧
    decode (.bank 0xC3F0000#28) = .error .bankOp2 := by decide

/-- 95_test_vectors.md: the words of L2.3 rows 18 and 19, L2.4a row 1, L2.5a row 2. -/
theorem test_encode_words :
    encode (.wr 0xBEFF#16 0x77#8) = .bus 0x1BEFF77#26 ∧ encode (.rd 0xBEFF#16) = .bus 0x0BEFF00#26 ∧
    encode (.bw 2#2 0x0010#16 0x5A#8) = .bank 0x600105A#28 ∧ encode (.nm 0xE205#16) = .bus 0x2E20500#26 ∧
    encode (.br 1#2 0xFFFF#16) = .bank 0x1FFFF00#28 := by decide

/-- The rows of the opcode table in their own widths, and in whole bytes where that leaves one reading. -/
theorem test_table_rows :
    decodeTableWord 26 0x0000000 = some (.rd 0#16) ∧ decodeTableWord 26 0x1000000 = some (.wr 0#16 0#8) ∧
    decodeTableWord 26 0x2000000 = some (.nm 0#16) ∧ decodeTableWord 28 0x0000000 = some (.br 0#2 0#16) ∧
    decodeTableWord 28 0x4000000 = some (.bw 0#2 0#16 0#8) ∧ decodeTableWord 32 0x1000000 = some (.wr 0#16 0#8) ∧
    decodeTableWord 32 0x4000000 = some (.bw 0#2 0#16 0#8) ∧ decodeTableWord 26 0x3000000 = none := by decide

/-! ### The checks refuse ill-formed terms -/

/-- R46 (a): a RAM range with START above END. -/
theorem test_wf_bounds : { Config.cfgRef with ramStart := 0x8000#16 }.wfBounds = false := by decide

/-- R46 (b): an empty CART range is well-formed, as is every other one. -/
theorem test_wf_cart :
    { Config.cfgRef with cartStart := 0xFFFF#16, cartEnd := 0x0000#16 }.wfCart = true ∧
    Config.cfgRef.wfCart = true := by decide

/-- R46 (c): CFG_X of L2.2, RAM_END = 0x8FFF, overlaps WAV. -/
theorem test_wf_disjoint : { Config.cfgRef with ramEnd := 0x8FFF#16 }.wfDisjoint = false := by decide

/-- R46 (d): two windows on one page. -/
theorem test_wf_pages : { Config.cfgRef with fdcPage := 0xE2#8 }.wfPages = false := by decide

/-- R46 (e): an image one byte short. -/
theorem test_wf_image : { Config.cfgRef with romImage := Config.cfgRef.romImage.tail }.wfImage = false := by
  refine decide_eq_false ?_
  rw [List.length_tail, Config.cfgRef_romImage_length]
  decide

/-- R48: CFG_REF passes the four clauses on its map; its image is `Config.cfgRef_wfImage`. -/
theorem test_wf_reference :
    (Config.cfgRef.wfBounds && Config.cfgRef.wfCart && Config.cfgRef.wfDisjoint && Config.cfgRef.wfPages) = true := by
  decide

/-- R82: each operand one above its field's range is an assembly error. -/
theorem test_asm_ranges :
    (AsmLine.rd 0x10000).toInstr? = none ∧ (AsmLine.wr 0 0x100).toInstr? = none ∧
    (AsmLine.nm 0x10000).toInstr? = none ∧ (AsmLine.br 4 0).toInstr? = none ∧
    (AsmLine.br 0 0x10000).toInstr? = none ∧ (AsmLine.bw 4 0 0).toInstr? = none ∧
    (AsmLine.bw 3 0xFFFF 0xFF).toInstr? = some (.bw 3#2 0xFFFF#16 0xFF#8) := by decide

/-- R82: lines of text, hexadecimal and decimal, with a comment (L2.3 row 18, L2.4a row 1). -/
theorem test_asm_text :
    assemble? "WR 0xBEFF, 0x77 ; last".toList = some (.bus 0x1BEFF77#26) ∧
    assemble? "BW 2, 16, 0x5A".toList = some (.bank 0x600105A#28) ∧
    assemble? "RD 0x10000".toList = none ∧ assemble? "XX 1".toList = none := by decide

/-! ### The decoder/mux and the labeler -/

/-- 95_test_vectors.md L2.1: the 26 rows. -/
theorem test_region_reference :
    ([(0x0000, 2), (0x7FFF, 2), (0x8000, 3), (0xBEFF, 3), (0xBF00, 0), (0xBFFF, 0), (0xC000, 4), (0xDFFF, 4),
      (0xE000, 0), (0xE0FF, 0), (0xE100, 0), (0xE1FF, 0), (0xE200, 5)] ++
     [(0xE2FF, 5), (0xE300, 0), (0xE400, 8), (0xE4FF, 8), (0xE500, 0), (0xE800, 6), (0xE8FF, 6), (0xEC00, 7),
      (0xECFF, 7), (0xED00, 0), (0xEFFF, 0), (0xF000, 1), (0xFFFF, 1)] : List (Nat × Nat)).all
      (fun r => sel Config.cfgRef (BitVec.ofNat 16 r.1) == BitVec.ofNat 4 r.2) = true := by decide

/-- 95_test_vectors.md L2.2: CFG_S89, CFG_X and CFG_Y. -/
theorem test_region_variants :
    regionOf Config.cfgS89 0xE200#16 = .rom ∧ regionOf Config.cfgS89 0xBF00#16 = .openBus ∧
    regionOf { Config.cfgRef with ramEnd := 0x8FFF#16 } 0x8000#16 = .ram ∧
    regionOf { Config.cfgRef with ramEnd := 0x8FFF#16 } 0x9000#16 = .wav ∧
    regionOf { Config.cfgRef with cartStart := 0xFFFF#16, cartEnd := 0x0000#16 } 0xC000#16 = .openBus ∧
    regionOf { Config.cfgRef with cartStart := 0xFFFF#16, cartEnd := 0x0000#16 } 0xFFFF#16 = .rom := by decide

/-- 95_test_vectors.md L2.5a, by KIND and IDX. -/
theorem test_labels_reference :
    ([(0xF000, 0, 0), (0xE205, 0, 1), (0xE206, 2, 0), (0x9000, 0, 2), (0x9001, 1, 0), (0x8000, 1, 0), (0xBEFF, 1, 0),
      (0xBF00, 6, 0), (0xE200, 2, 0), (0xE800, 3, 0), (0xEC7F, 4, 0)] ++
     [(0xE400, 6, 0), (0xE100, 6, 0), (0x7F00, 5, 0), (0x7FFF, 5, 0), (0x7F20, 0, 4), (0x7EFF, 6, 0), (0x80FF, 1, 0),
      (0xF001, 6, 0), (0xC000, 6, 0), (0x0000, 6, 0)] : List (Nat × Nat × Nat)).all
      (fun r => (labelOf Config.cfgRef (BitVec.ofNat 16 r.1)).code == (BitVec.ofNat 3 r.2.1, r.2.2)) = true := by
  decide

/-- 95_test_vectors.md L2.5b: LEGACY_PRECEDENCE_BUG. -/
theorem test_labels_legacy :
    labelOf { Config.cfgRef with legacyPrecedenceBug := true } 0x7F00#16 = .default ∧
    labelOf { Config.cfgRef with legacyPrecedenceBug := true } 0x7F20#16 = .named 4 := by decide

/-- 95_test_vectors.md L2.5a rows 1, 5 and 8: the texts. -/
theorem test_label_texts :
    (Label.named 0).text Config.cfgRef = some "OS_ENTRY_T" ∧ Label.wav.text Config.cfgRef = some "wav data section" ∧
    Label.default.text Config.cfgRef = some "?" := ⟨rfl, rfl, rfl⟩

/-! ### Steps -/

/-- L2.3 row 2: RD 0xFFFF answers 0xA5. -/
theorem test_rd_rom :
    (nextOf (exec (.rd 0xFFFF#16) State.reset)).map (·.responses) = some [.byte 0xA5#8] := by decide +kernel

/-- L2.3 row 19: RD 0xBEFF with the PIA answering 0x06 reads bank 2 and makes one device call. -/
theorem test_rd_wav :
    (nextOf (exec (.rd 0xBEFF#16) ((withPia [0x06#8]).wavWrite 2#2 0x3EFF 0x77#8))).map
      (fun t => (t.responses, t.history, t.piaAnswers)) =
    some ([.byte 0x77#8], [.devRd .pia 0x00#8 0x06#8], []) := by decide

/-- P1 row 4: WR 0x1234, 0x42 writes that cell of RAM and calls no device. -/
theorem test_wr_ram :
    (nextOf (exec (.wr 0x1234#16 0x42#8) State.reset)).map (fun t => (t.ram, t.history, t.responses)) =
    some ([(0x1234, 0x42#8)], [], []) := by decide

/-- L2.3 row 18: WR 0xBEFF, 0x77 with the PIA answering 0x06 writes the last cell of bank 2 alone. -/
theorem test_wr_wav :
    (nextOf (exec (.wr 0xBEFF#16 0x77#8) (withPia [0x06#8]))).map
      (fun t => (t.wav.toList, t.history)) =
    some ([[], [], [(0x3EFF, 0x77#8)], []], [.devRd .pia 0x00#8 0x06#8]) := by decide

/-- L2.5a row 4: NM 0x9000 answers NAMED(2), before the WAV range. -/
theorem test_nm_named :
    (nextOf (exec (.nm 0x9000#16) State.reset)).map (·.responses) = some [.label (.named 2)] := by decide

/-- L2.6d row 4: NM 0xE200 still answers in emergency. -/
theorem test_nm_emergency :
    (nextOf (exec (.nm 0xE200#16) { State.reset with emergency := true })).map (·.responses) =
    some [.label .winPia] := by decide

/-- L2.4a row 2: BR 2, 0x0010 answers what bank 2 holds there, with no device call. -/
theorem test_br :
    (nextOf (exec (.br 2#2 0x0010#16) (State.reset.wavWrite 2#2 0x0010 0x5A#8))).map
      (fun t => (t.responses, t.history)) = some ([.byte 0x5A#8], []) := by decide

/-- L2.4c row 1: BR 1, 0xFFFF raises OffsetFault(1, 0xFFFF) and answers nothing. -/
theorem test_br_fault :
    (nextOf (exec (.br 1#2 0xFFFF#16) State.reset)).map (fun t => (t.fault, t.responses)) =
    some (some (.offsetFault 1#2 0xFFFF#16), []) := by decide

/-- L2.4a row 6: BW 3, 0x3EFF, 0x01 writes the last cell of bank 3. -/
theorem test_bw_last :
    (nextOf (exec (.bw 3#2 0x3EFF#16 0x01#8) State.reset)).map (fun t => (t.bank 3#2, t.fault)) =
    some ([(0x3EFF, 0x01#8)], none) := by decide

/-- L2.4b row 1: BW 3, 0x3F00, 0x01 raises OffsetFault(3, 0x3F00) and writes nothing. -/
theorem test_bw_fault :
    (nextOf (exec (.bw 3#2 0x3F00#16 0x01#8) State.reset)).map (fun t => (t.bank 3#2, t.fault)) =
    some ([], some (.offsetFault 3#2 0x3F00#16)) := by decide

/-- L2.6c: OP2 = 0b11 with an offset out of range is BadOp. -/
theorem test_badop_before_offset :
    (nextOf (step (asking (.word (.bank 0xC3F0000#28))))).map (·.fault) =
    some (some (.badOp (.bank 0xC3F0000#28))) := by decide

/-- L2.6b row 2: after a fault even NM has no step. -/
theorem test_stuck_after_fault :
    faultOf (step { asking (.word (.bus 0x2123400#26)) with fault := some (.badOp (.bank 0x8000000#28)) }) =
    some (.stuckFaulted (.badOp (.bank 0x8000000#28))) := by decide

/-- L2.6d rows 2 and 3: in emergency a reserved word and an out-of-range BW have no step. -/
theorem test_stuck_in_emergency :
    faultOf (step { asking (.word (.bus 0x3000000#26)) with emergency := true }) = some .stuckEmergency ∧
    faultOf (step { asking (.word (.bank 0x43F0000#28)) with emergency := true }) = some .stuckEmergency := by
  decide

/-- `withFetchWord` places the request that the next step runs: L2.4a row 1 as a 28-bit word. -/
theorem test_withFetchWord :
    (nextOf (step (State.reset.withFetchWord 28 0x600105A))).map (fun t => (t.bank 2#2, t.requests)) =
    some ([(0x0010, 0x5A#8)], []) := by decide

/-! ### Witnesses: states and operands that meet the hypotheses of the obligations -/

theorem reset_ready : State.reset.Ready := ⟨rfl, rfl, rfl⟩

theorem reset_inv : State.reset.Inv where
  ramWf := List.Pairwise.nil
  ramBelow := fun _ hp => absurd hp List.not_mem_nil
  wavWf := by decide
  wavBelow := by decide
  romLoaded := fun _ => ⟨rfl, of_decide_eq_true Config.cfgRef_wfImage⟩
  faultLegal := fun _ hr => nomatch hr

/-- The boundary addresses of every region of CFG_REF, for the statements about one region. -/
theorem witness_regions :
    (regionOf State.reset.cfg 0xF000#16 = .rom ∧ regionOf State.reset.cfg 0xFFFF#16 = .rom) ∧
    (regionOf State.reset.cfg 0x0000#16 = .ram ∧ regionOf State.reset.cfg 0x7FFF#16 = .ram) ∧
    (regionOf State.reset.cfg 0x8000#16 = .wav ∧ regionOf State.reset.cfg 0xBEFF#16 = .wav) ∧
    (regionOf State.reset.cfg 0xC000#16 = .cart ∧ regionOf State.reset.cfg 0xDFFF#16 = .cart) ∧
    (regionOf State.reset.cfg 0xE200#16 = .pia ∧ regionOf State.reset.cfg 0xE2FF#16 = .pia) ∧
    (regionOf State.reset.cfg 0xE800#16 = .fdc ∧ regionOf State.reset.cfg 0xE8FF#16 = .fdc) ∧
    (regionOf State.reset.cfg 0xEC00#16 = .snd ∧ regionOf State.reset.cfg 0xECFF#16 = .snd) ∧
    (regionOf State.reset.cfg 0xE400#16 = .flt ∧ regionOf State.reset.cfg 0xE4FF#16 = .flt) ∧
    (regionOf State.reset.cfg 0xBF00#16 = .openBus ∧ regionOf State.reset.cfg 0xED00#16 = .openBus) := by decide

theorem witness_DecodedWordReencodes :
    decode (.bus 0x2E205AB#26) = .ok (.nm 0xE205#16) ∧ decode (.bank 0x73EFF01#28) = .ok (.bw 3#2 0x3EFF#16 0x01#8) := by
  decide

theorem witness_StepRunsDecodedRequest :
    (asking (.word (.bus 0x0FFFF00#26))).requests = [.word (.bus 0x0FFFF00#26)] ∧
    decode (.bus 0x0FFFF00#26) = .ok (.rd 0xFFFF#16) := by decide

theorem witness_WaitsForRequests :
    State.reset.requests = [] ∧ State.reset.fault = none ∧
    (State.reset.raise (.offsetFault 0#2 0x3F00#16)).requests = [] ∧
    (State.reset.raise (.offsetFault 0#2 0x3F00#16)).fault = some (.offsetFault 0#2 0x3F00#16) := by decide

theorem witness_OnlyOneByteAccesses :
    (asking (.memRead 0xFFFF#16 1)).requests = [.memRead 0xFFFF#16 1] ∧
    (asking (.memRead 0xFFFF#16 2)).requests = [.memRead 0xFFFF#16 2] ∧
    (asking (.memWrite 0x0000#16 1 0xFF#8)).requests = [.memWrite 0x0000#16 1 0xFF#8] ∧
    (asking (.memWrite 0x0000#16 0 0xFF#8)).requests = [.memWrite 0x0000#16 0 0xFF#8] := by decide

/-- For FirstMatchingRegionWins: the first and the last test hold somewhere, and somewhere none does. -/
theorem witness_FirstMatchingRegionWins :
    (regionTests Config.cfgRef 0xF000#16)[0]? = some (.rom, true) ∧
    (regionTests Config.cfgRef 0xE4FF#16)[7]? = some (.flt, true) ∧
    (∀ q ∈ (regionTests Config.cfgRef 0xE4FF#16).take 7, q.2 = false) ∧
    ∀ q ∈ regionTests Config.cfgRef 0xBF00#16, q.2 = false := by decide

theorem witness_RegionsExclusiveWhenWellFormed : Config.cfgRef.wf = true := by
  have h := test_wf_reference
  simp only [Cfg.wf, h, Config.cfgRef_wfImage, Bool.and_true]

/-- For EmptyRangeMatchesNothing: one empty range for each clause, adjacent bounds. -/
theorem witness_EmptyRangeMatchesNothing :
    { Config.cfgRef with romEnd := 0xEFFF#16 }.romEnd < Config.cfgRef.romStart ∧
    { Config.cfgRef with ramStart := 0x8000#16 }.ramEnd < 0x8000#16 ∧
    { Config.cfgRef with wavEnd := 0x7FFF#16 }.wavEnd < Config.cfgRef.wavStart ∧
    Config.cfgS89.cartEnd < Config.cfgS89.cartStart := by decide

theorem witness_SerialPageIsOpen :
    ([0xE100#16, 0xE1FF#16] : List Addr).all (fun a => pageOf a == 0xE1#8 &&
      !inRange Config.cfgRef.romStart Config.cfgRef.romEnd a &&
      !inRange Config.cfgRef.ramStart Config.cfgRef.ramEnd a &&
      !inRange Config.cfgRef.wavStart Config.cfgRef.wavEnd a &&
      !inRange Config.cfgRef.cartStart Config.cfgRef.cartEnd a) = true ∧
    Config.cfgRef.piaPage ≠ 0xE1#8 ∧ Config.cfgRef.fdcPage ≠ 0xE1#8 ∧ Config.cfgRef.sndPage ≠ 0xE1#8 := by decide

/-- For ResolvedMaps: a row of each table at both of its ends. -/
theorem witness_ResolvedMaps :
    ((0xF000, 0xFFFF, Region.rom) ∈ [(0xF000, 0xFFFF, Region.rom)]) ∧ 0xF000 ≤ (0xF000#16).toNat ∧
    (0xFFFF#16).toNat ≤ 0xFFFF := by decide

/-- For RdAnswersRomAndRam, RomAddressesReadTheImage, WrWithoutStorageChangesNothing, WrWritesRam, RomIgnoresWrites,
RamAccessesAreAnnotated, RdFixedValueRegions, RdForwardsToDevice, WrForwardsToDevice, RdAnswersSampledBank,
WrWritesSampledBank and RdWrNmNeverRaise: a ready state that meets the invariant, and an address at each end of each
region (`witness_regions`). -/
theorem witness_ready_regions :
    State.reset.Ready ∧ State.reset.Inv ∧ regionOf State.reset.cfg 0xF000#16 = .rom ∧
    regionOf State.reset.cfg 0x7FFF#16 = .ram ∧ regionOf State.reset.cfg 0xBEFF#16 = .wav ∧
    regionOf State.reset.cfg 0xE2FF#16 = .pia ∧ regionOf State.reset.cfg 0xE800#16 = .fdc :=
  ⟨reset_ready, reset_inv, witness_regions.1.1, witness_regions.2.1.2, witness_regions.2.2.1.2,
    witness_regions.2.2.2.2.1.2, witness_regions.2.2.2.2.2.1.1⟩

/-- For RepeatedReadsAgree: two answers with one bank and different high bits, at a WAV address. -/
theorem witness_RepeatedReadsAgree :
    (withPia [0xFC#8, 0x00#8]).Ready ∧ regionOf (withPia [0xFC#8, 0x00#8]).cfg 0x8000#16 = .wav ∧
    (nextOf (exec (.rd 0x8000#16) (withPia [0xFC#8, 0x00#8]))).map
      (fun t => (t.deviceAnswer .pia 0x00#8).extractLsb' 0 2) =
      some (((withPia [0xFC#8, 0x00#8]).deviceAnswer .pia 0x00#8).extractLsb' 0 2) :=
  ⟨⟨rfl, rfl, rfl⟩, by decide, by decide⟩

/-- For DeviceCallCount: a transaction of each kind that answers a next state. -/
theorem witness_DeviceCallCount :
    (nextOf (exec (.rd 0x8000#16) (withPia [0x00#8]))).map (·.history.length) = some 1 ∧
    (nextOf (exec (.wr 0xE800#16 0x0B#8) State.reset)).map (·.history.length) = some 1 ∧
    (nextOf (exec (.nm 0xE200#16) State.reset)).map (·.history.length) = some 0 ∧
    (nextOf (exec (.bw 3#2 0x3EFF#16 0x01#8) State.reset)).map (·.history.length) = some 0 := by decide

/-- For BrAnswersCell, BwWritesCell and OffsetFaultAtBankSize: the offsets on both sides of BANK_SIZE, a written cell and
one that is not. -/
theorem witness_offsets :
    State.reset.Ready ∧ ((0x3EFF#16).toNat : Int) < State.reset.cfg.bankSize ∧
    State.reset.cfg.bankSize ≤ ((0x3F00#16).toNat : Int) ∧ State.reset.cfg.bankSize ≤ ((0xFFFF#16).toNat : Int) ∧
    (State.reset.bank 0#2).read? 0x3EFF = none ∧
    ((State.reset.wavWrite 0#2 0x3EFF 0xAA#8).bank 0#2).read? 0x3EFF = some 0xAA#8 :=
  ⟨reset_ready, by decide, by decide, by decide, by decide, by decide⟩

/-- For BanksAreIndependent: its first clause at a WAV address, its second at a cell beside the written one and at the
same offset of another bank. -/
theorem witness_BanksAreIndependent :
    (withPia [0x01#8]).Ready ∧ regionOf (withPia [0x01#8]).cfg 0x8000#16 = .wav ∧
    (nextOf (exec (.bw 3#2 0x0000#16 0x01#8) State.reset)).isSome = true ∧
    ¬ ((0#2 : Bank) = 3#2 ∧ 0 = (0x0000#16).toNat) ∧ ¬ ((3#2 : Bank) = 3#2 ∧ 1 = (0x0000#16).toNat) :=
  ⟨⟨rfl, rfl, rfl⟩, by decide, by decide, by decide, by decide⟩

theorem witness_PortsShareTheStore :
    (withPia [0x06#8]).Ready ∧ regionOf (withPia [0x06#8]).cfg 0xBEFF#16 = .wav ∧
    (withPia [0x06#8]).piaAnswers = [0x06#8] :=
  ⟨⟨rfl, rfl, rfl⟩, by decide, by decide⟩

/-- For NmAnswersLabel: NM may run in emergency too, and twice. -/
theorem witness_NmAnswersLabel :
    State.Names { State.reset with emergency := true } ∧
    ((nextOf (exec (.nm 0x7F00#16) State.reset)).bind fun t => nextOf (exec (.nm 0x7F00#16) t)).isSome = true :=
  ⟨⟨rfl, rfl⟩, by decide⟩

/-- No entry of CFG_REF's label table has this address. -/
def unnamed (a : Addr) : Bool := Config.cfgRef.namedTable.all fun e => e.1 != a

/-- For LabelPriorityChain: an address for each clause: the first of a duplicate, both ends of WAV, each window, both ends
of page 0x7F with the flag false and true, and the default. -/
theorem witness_LabelPriorityChain :
    Config.cfgRef.namedTable[0]?.map Prod.fst = some 0xF000#16 ∧
    ([0x8000#16, 0xBEFF#16] : List Addr).all
      (fun a => unnamed a && inRange Config.cfgRef.wavStart Config.cfgRef.wavEnd a) = true ∧
    ([0xE200#16, 0xE2FF#16, 0xE800#16, 0xECFF#16, 0x7F00#16, 0x7FFF#16, 0x7EFF#16] : List Addr).all
      (fun a => unnamed a && !inRange Config.cfgRef.wavStart Config.cfgRef.wavEnd a) = true ∧
    (0xE2FF#16 &&& 0xFF00#16 = Config.cfgRef.piaPage.setWidth 16 <<< 8 ∧
      0xE800#16 &&& 0xFF00#16 = Config.cfgRef.fdcPage.setWidth 16 <<< 8 ∧
      0xECFF#16 &&& 0xFF00#16 = Config.cfgRef.sndPage.setWidth 16 <<< 8 ∧ 0x7FFF#16 &&& 0xFF00#16 = 0x7F00#16) ∧
    { Config.cfgRef with legacyPrecedenceBug := true }.legacyPrecedenceBug = true :=
  ⟨rfl, by decide, by decide, by decide, rfl⟩

/-- For LabelCodesAndTexts: the last entry of the table. -/
theorem witness_LabelTexts : Config.cfgRef.namedTable[4]? = some (0x7F20#16, "CRASH_T") := rfl

/-- For LabelCodesAndTexts: a label with KIND 0 and one without. -/
theorem witness_LabelCodes :
    (labelOf Config.cfgRef 0x7F20#16).code.1 = 0#3 ∧ (labelOf Config.cfgRef 0x7F00#16).code.1 ≠ 0#3 := by decide

/-- For ReservedWordRaisesBadOp: the three reserved codes, at the smallest and the largest word. -/
theorem witness_ReservedWordRaisesBadOp :
    (asking (.word (.bus 0x3000000#26))).Ready ∧ (0x3000000#26).extractLsb' 24 2 = 0b11#2 ∧
    (0x3FFFFFF#26).extractLsb' 24 2 = 0b11#2 ∧ (0x8000000#28).extractLsb' 26 2 = 0b10#2 ∧
    (0xFFFFFFF#28).extractLsb' 26 2 = 0b11#2 ∧
    (asking (.word (.bank 0x8000000#28))).requests = [.word (.bank 0x8000000#28)] :=
  ⟨⟨rfl, rfl, rfl⟩, by decide, by decide, by decide, by decide, by decide⟩

/-- For FaultsAreFailStop: a marked fault with a word pending, and one with a host's act pending, which steps. -/
theorem witness_FaultsAreFailStop :
    ((asking (.word (.bus 0x2000000#26))).raise (.offsetFault 0#2 0x3F00#16)).booted = true ∧
    (nextOf (step ((asking (.setDebug true)).raise (.offsetFault 0#2 0x3F00#16)))).isSome = true := by decide

/-- For EmergencyGatesAllButNm: the mode set, an NM word and a reserved one pending. -/
theorem witness_EmergencyGatesAllButNm :
    (asking (.word (.bus 0x2E20000#26))).enterEmergency.booted = true ∧
    (asking (.word (.bus 0x2E20000#26))).enterEmergency.fault = none ∧
    (asking (.word (.bus 0x2E20000#26))).enterEmergency.emergency = true ∧
    decode (.bus 0x2E20000#26) = .ok (.nm 0xE200#16) ∧ decode (.bus 0x3000000#26) = .error .busOp := by decide

/-- For TransactionPriority: a word for each of its checks. -/
theorem witness_TransactionPriority :
    (asking (.word (.bank 0x43F0000#28))).Ready ∧ decode (.bank 0xC3F0000#28) = .error .bankOp2 ∧
    decode (.bank 0x43F0000#28) = .ok (.bw 0#2 0x3F00#16 0x00#8) ∧
    State.reset.cfg.bankSize ≤ ((0x3F00#16).toNat : Int) ∧
    decode (.bank 0x03EFF00#28) = .ok (.br 0#2 0x3EFF#16) ∧ ((0x3EFF#16).toNat : Int) < State.reset.cfg.bankSize :=
  ⟨⟨rfl, rfl, rfl⟩, by decide, by decide, by decide, by decide, by decide⟩

/-- For FaultsArePrecise: a step that marks a fault. -/
theorem witness_FaultsArePrecise :
    (nextOf (step (asking (.word (.bank 0x43F0000#28))))).map (·.fault) =
      some (some (.offsetFault 0#2 0x3F00#16)) := by decide

/-- For OnlyTheHostChangesModes: steps that change each mode. -/
theorem witness_OnlyTheHostChangesModes :
    (nextOf (step (asking .setEmergency))).map (·.emergency) = some true ∧
    (nextOf (step (asking (.setDebug true)))).map (·.debug) = some true := by decide

theorem witness_host_acts :
    (asking .setEmergency).requests = [.setEmergency] ∧
    (asking (.reportFault 0xFFF8#16)).requests = [.reportFault 0xFFF8#16] ∧
    (asking (.traceHook .onNmi 0xF000#16)).requests = [.traceHook .onNmi 0xF000#16] := by decide

/-- For BootLoadsTheImage: an image that fits, one that does not, and the state before the load. -/
theorem witness_BootLoadsTheImage :
    (Config.cfgRef.romImage.length : Int) = Config.cfgRef.romSize ∧
    ((State.powerOn { Config.cfgRef with romImage := [] }).cfg.romImage.length : Int) ≠
      (State.powerOn { Config.cfgRef with romImage := [] }).cfg.romSize ∧
    (State.powerOn Config.cfgRef).booted = false :=
  ⟨of_decide_eq_true Config.cfgRef_wfImage, by decide, rfl⟩

/-- For StepKeepsTheInvariant, ConfigurationAndRomAreConstant and HistoriesOnlyGrow: the invariant and a step that answers
a next state. -/
theorem witness_step_from_invariant :
    (State.reset.withFetchWord 28 0x43EFFAA).Inv ∧
    (nextOf (step (State.reset.withFetchWord 28 0x43EFFAA))).isSome = true :=
  ⟨⟨reset_inv.1, reset_inv.2, reset_inv.3, reset_inv.4, reset_inv.5, reset_inv.6⟩, by decide⟩

/-- For OnlyWrChangesRam: a WR that changes a written byte. -/
theorem witness_OnlyWrChangesRam :
    (nextOf (step ((asking (.word (.bus 0x1123442#26))).ramWrite 0x1234 0x00#8))).map (·.ramRead 0x1234) =
      some 0x42#8 ∧ ((asking (.word (.bus 0x1123442#26))).ramWrite 0x1234 0x00#8).ramRead 0x1234 ≠ 0x42#8 := by
  decide

/-- For OnlyWrAndBwChangeWav: a BW and a WR that change a written byte. -/
theorem witness_OnlyWrAndBwChangeWav :
    (nextOf (step ((asking (.word (.bank 0x600105A#28))).wavWrite 2#2 0x0010 0x00#8))).map (·.wavRead 2#2 0x0010) =
      some 0x5A#8 ∧
    (nextOf (step (({ asking (.word (.bus 0x1800011#26)) with piaAnswers := [0x00#8] } : State).wavWrite 0#2 0
      0x00#8))).map (·.wavRead 0#2 0) = some 0x11#8 := by decide

/-- For LoggingChangesNothing: two states that differ in the flag and the log. -/
theorem witness_LoggingChangesNothing :
    State.reset.unobserved = (State.emit (.fltRead 0x00#8) { State.reset with debug := true }).unobserved ∧
    State.reset ≠ State.emit (.fltRead 0x00#8) { State.reset with debug := true } :=
  ⟨rfl, fun h => absurd (congrArg State.debug h) (by decide)⟩

end Sys2Proof.Tests
end

section
/-!
PROOFS. One step: which request it performs, and what it appends to the histories (R5, R10, R52, R55, R70, R75).
-/

namespace Sys2Proof.Machine

variable {s t u : State}

/-! ### The equations of one step -/

/-- With a request pending, the step takes it and performs it. -/
theorem step_of_requests_cons {r : Request} {rest : List Request} (h : s.requests = r :: rest) :
    step s = perform r (s.setRequests rest) := by
  simp only [step, h]

theorem step_of_requests_nil (h : s.requests = []) : step s = idle s := by
  simp only [step, h]

theorem idle_of_no_fault (h : s.fault = none) : idle s = .next s := by
  simp only [idle, h]

theorem idle_of_fault {r : FaultRecord} (h : s.fault = some r) : idle s = .fault (.stuckFaulted r) := by
  simp only [idle, h]

theorem perform_word_of_decode {w : ReqWord} {i : Instr} (h : decode w = .ok i) (s : State) :
    perform (.word w) s = exec i s := by
  simp only [perform, execWord, h]

theorem perform_memRead (a : Addr) (n : Nat) (s : State) :
    perform (.memRead a n) s = if n = 1 then exec (.rd a) s else .refused (.accessWidth n) := rfl

theorem perform_memWrite (a : Addr) (n : Nat) (v : Byte) (s : State) :
    perform (.memWrite a n v) s = if n = 1 then exec (.wr a v) s else .refused (.accessWidth n) := rfl

/-- Settles O8: the step performs the pending word, and performing it is the decoded instruction's effect. -/
theorem stepRunsDecodedRequest : Obligations.StepRunsDecodedRequest := by
  intro s w rest i hreq hdec
  exact (step_of_requests_cons hreq).trans (perform_word_of_decode hdec _)

/-- Settles O9: without a request the step is `idle`, which only the fault mark decides. -/
theorem waitsForRequests : Obligations.WaitsForRequests := by
  intro s hreq
  rw [step_of_requests_nil hreq]
  exact ⟨idle_of_no_fault, fun _ => idle_of_fault⟩

/-- Settles O10: the step performs the access, whose width is looked at before the state is. -/
theorem onlyOneByteAccesses : Obligations.OnlyOneByteAccesses := by
  intro s a n v rest
  exact ⟨fun hreq => (step_of_requests_cons hreq).trans (perform_memRead a n _),
    fun hreq => (step_of_requests_cons hreq).trans (perform_memWrite a n v _)⟩

/-! ### What is only ever appended -/

/-- From `s` to `t` the device-call history, the responses and the log are only appended to, with at most `n` new
responses. The count makes the relation compose along the parts of a transaction. -/
structure State.AppendsUpTo (n : Nat) (s t : State) : Prop where
  history : s.history <+: t.history
  responses : s.responses <+: t.responses
  log : s.log <+: t.log
  responseCount : t.responses.length ≤ s.responses.length + n

namespace State.AppendsUpTo

theorem of_eq (n : Nat) (hh : t.history = s.history) (hr : t.responses = s.responses) (hl : t.log = s.log) :
    AppendsUpTo n s t where
  history := by rw [hh]
  responses := by rw [hr]
  log := by rw [hl]
  responseCount := by rw [hr]; exact Nat.le_add_right _ _

theorem trans {m n : Nat} (h₁ : AppendsUpTo m s t) (h₂ : AppendsUpTo n t u) : AppendsUpTo (m + n) s u where
  history := h₁.history.trans h₂.history
  responses := h₁.responses.trans h₂.responses
  log := h₁.log.trans h₂.log
  responseCount := by
    have hst := h₁.responseCount
    have htu := h₂.responseCount
    omega

theorem mono {m n : Nat} (h : AppendsUpTo m s t) (hmn : m ≤ n) : AppendsUpTo n s t :=
  { h with responseCount := h.responseCount.trans (Nat.add_le_add_left hmn _) }

/-! The operations that append, and those built from them. -/

theorem answer (r : Response) (s : State) : AppendsUpTo 1 s (s.answer r) where
  history := List.prefix_rfl
  responses := List.prefix_append _ _
  log := List.prefix_rfl
  responseCount := by simp

theorem emit (e : LogEvent) (s : State) : AppendsUpTo 0 s (s.emit e) where
  history := List.prefix_rfl
  responses := List.prefix_rfl
  log := List.prefix_append _ _
  responseCount := Nat.le_refl _

theorem record (e : DevEvent) (s : State) : AppendsUpTo 0 s (s.record e) where
  history := List.prefix_append _ _
  responses := List.prefix_rfl
  log := List.prefix_rfl
  responseCount := Nat.le_refl _

theorem takeAnswer (d : Device) (s : State) : AppendsUpTo 0 s (s.takeAnswer d) := by
  rw [State.takeAnswer_eq]
  exact .of_eq 0 rfl rfl rfl

theorem devRead (d : Device) (i : Byte) (s : State) : AppendsUpTo 0 s (s.devRead d i).2 :=
  (takeAnswer d s).trans (record _ _)

theorem wavWrite (k : Bank) (o : Nat) (v : Byte) (s : State) : AppendsUpTo 0 s (s.wavWrite k o v) :=
  .of_eq 0 rfl rfl rfl

theorem annotate (a : Addr) (s : State) : AppendsUpTo 0 s (s.annotate a) := by
  unfold State.annotate
  split
  · exact emit _ s
  · exact .of_eq 0 rfl rfl rfl

theorem logAccess (op : BusOp) (a : Addr) (v : Byte) (s : State) : AppendsUpTo 0 s (s.logAccess op a v) := by
  unfold State.logAccess
  split
  · exact emit _ s
  · exact .of_eq 0 rfl rfl rfl

theorem busRead (a : Addr) (s : State) : AppendsUpTo 0 s (busRead a s).2 := by
  unfold Machine.busRead
  cases regionOf s.cfg a with
  | rom | ram | cart | openBus => exact .of_eq 0 rfl rfl rfl
  | wav | pia | fdc => exact devRead _ _ s
  | snd | flt => exact emit _ s

theorem busWrite (a : Addr) (v : Byte) (s : State) : AppendsUpTo 0 s (busWrite a v s) := by
  unfold Machine.busWrite
  cases regionOf s.cfg a with
  | rom | ram | cart | openBus => exact .of_eq 0 rfl rfl rfl
  | wav => exact (devRead _ _ s).trans (wavWrite _ _ _ _)
  | pia | fdc => exact record _ s
  | snd | flt => exact emit _ s

end State.AppendsUpTo

open State (AppendsUpTo)

/-- A transaction appends at most one response: RD, NM and BR answer once, WR and BW never (R75). -/
theorem exec_appends {i : Instr} (h : exec i s = .next t) : AppendsUpTo 1 s t := by
  cases i with
  | rd a =>
    obtain ⟨-, rfl⟩ := execRd_next h
    exact (((AppendsUpTo.busRead a s).trans (.annotate a _)).trans (.logAccess .rd a _ _)).trans (.answer _ _)
  | wr a v =>
    obtain ⟨-, rfl⟩ := execWr_next h
    exact (((AppendsUpTo.busWrite a v s).trans (.annotate a _)).trans (.logAccess .wr a v _)).mono (Nat.zero_le 1)
  | nm a =>
    obtain ⟨-, rfl⟩ := execNm_next h
    exact .answer _ s
  | br k o =>
    obtain ⟨-, ⟨-, rfl⟩ | ⟨-, rfl⟩⟩ := execBr_next h
    · exact .of_eq 1 rfl rfl rfl
    · exact .answer _ s
  | bw k o v =>
    obtain ⟨-, ⟨-, rfl⟩ | ⟨-, rfl⟩⟩ := execBw_next h
    · exact .of_eq 1 rfl rfl rfl
    · exact (AppendsUpTo.wavWrite k o.toNat v s).mono (Nat.zero_le 1)

/-- Of what is no transaction, only the trace line appends anything. -/
theorem perform_appends {r : Request} (h : perform r s = .next t) : AppendsUpTo 1 s t := by
  obtain ⟨i, hi⟩ | ⟨w, e, -, -, rfl⟩ | ⟨-, -, rfl⟩ | ⟨b, rfl⟩ | ⟨l, rfl⟩ | rfl | ⟨e, rfl⟩ | rfl := perform_next h
  · exact exec_appends hi
  · exact .of_eq 1 rfl rfl rfl
  · exact .of_eq 1 rfl rfl rfl
  · exact .of_eq 1 rfl rfl rfl
  · exact .of_eq 1 rfl rfl rfl
  · exact .of_eq 1 rfl rfl rfl
  · exact (AppendsUpTo.emit e s).mono (Nat.zero_le 1)
  · exact .of_eq 1 rfl rfl rfl

theorem step_appends (h : step s = .next t) : AppendsUpTo 1 s t := by
  obtain ⟨-, -, rfl⟩ | ⟨r, rest, -, hp⟩ := step_next h
  · exact .of_eq 1 rfl rfl rfl
  · have htake : AppendsUpTo 0 s (s.setRequests rest) := .of_eq 0 rfl rfl rfl
    exact htake.trans (perform_appends hp)

/-- Settles O57: every part of a step appends, and a step answers at most once. -/
theorem historiesOnlyGrow : Obligations.HistoriesOnlyGrow := by
  intro s t h
  have ha := step_appends h
  exact ⟨ha.history, ha.responses, ha.log, ha.responseCount⟩

end Sys2Proof.Machine
end

section
/-!
PROOFS. The state and its invariant: what a request may change in ROM, PRG_RAM, WAV_RAM, the configuration and the modes
(R23 to R26, R29, R30, R34, R204, R207, R242).
-/

namespace Sys2Proof.Machine

variable {s t : State}

/-! ### What a pending request can do -/

/-- The transaction that a request of the host asks for: the decoded word (R70), or the one-byte access (R10). -/
inductive Request.Asks : Request → Instr → Prop
  | word {w : ReqWord} {i : Instr} (hdec : decode w = .ok i) : Asks (.word w) i
  | memRead (a : Addr) : Asks (.memRead a 1) (.rd a)
  | memWrite (a : Addr) (v : Byte) : Asks (.memWrite a 1 v) (.wr a v)

theorem Request.Asks.wr_cases {r : Request} {a : Addr} {v : Byte} (h : r.Asks (.wr a v)) :
    r = .memWrite a 1 v ∨ ∃ w, r = .word w ∧ decode w = .ok (.wr a v) := by
  cases h with
  | word hdec => exact .inr ⟨_, rfl, hdec⟩
  | memWrite => exact .inl rfl

/-- BW is asked for by its word alone. -/
theorem Request.Asks.bw_cases {r : Request} {k : Bank} {o : Addr} {v : Byte} (h : r.Asks (.bw k o v)) :
    ∃ w, r = .word w ∧ decode w = .ok (.bw k o v) := by
  cases h with
  | word hdec => exact ⟨_, rfl, hdec⟩

/-- The next states of performing a request in `s`. Unlike `perform_next` it keeps which request led to which of them. -/
inductive PerformsTo (s : State) : Request → State → Prop
  | transaction {r : Request} {i : Instr} {t : State} (hask : r.Asks i) (hexec : exec i s = .next t) : PerformsTo s r t
  | badOp {w : ReqWord} {e : Reserved} (hdec : decode w = .error e) (hready : s.Ready) :
      PerformsTo s (.word w) (s.raise (.badOp w))
  | loadRom (hbooted : s.booted = false) (hfits : s.cfg.wfImage = true) : PerformsTo s .loadRom s.loadImage
  | setDebug (b : Bool) : PerformsTo s (.setDebug b) (s.setDebug b)
  | reportFault (sp : Addr) :
      PerformsTo s (.reportFault sp) (s.setRequests (stackReads stackReadCount sp ++ .setEmergency :: s.requests))
  | setEmergency : PerformsTo s .setEmergency s.enterEmergency
  | traceLine (k : Hook) (dest : Addr) (hdebug : s.debug = true) :
      PerformsTo s (.traceHook k dest) (s.emit (.trace k dest (labelOf s.cfg dest)))
  | traceSilent (k : Hook) (dest : Addr) (hdebug : s.debug = false) : PerformsTo s (.traceHook k dest) s

theorem performsTo_of_perform {r : Request} (h : perform r s = .next t) : PerformsTo s r t := by
  cases r with
  | word w =>
    cases hdec : decode w with
    | ok i => exact .transaction (.word hdec) ((perform_word_of_decode hdec s).symm.trans h)
    | error e =>
      have hbad : badOp w s = .next t := by simpa only [perform, execWord, hdec] using h
      obtain ⟨hready, rfl⟩ := badOp_next hbad
      exact .badOp hdec hready
  | memRead a n =>
    rw [perform_memRead] at h
    split at h
    · subst n; exact .transaction (.memRead a) h
    · cases h
  | memWrite a n v =>
    rw [perform_memWrite] at h
    split at h
    · subst n; exact .transaction (.memWrite a v) h
    · cases h
  | loadRom =>
    simp only [perform, Machine.loadRom] at h
    split at h
    · cases h
    · split at h <;> cases h
      exact .loadRom (eq_false_of_ne_true ‹_›) ‹_›
  | setDebug b => cases h; exact .setDebug b
  | reportFault sp => cases h; exact .reportFault sp
  | setEmergency => cases h; exact .setEmergency
  | traceHook k dest =>
    cases h
    unfold traceHook
    split
    · exact .traceLine k dest ‹_›
    · exact .traceSilent k dest (eq_false_of_ne_true ‹_›)

/-- Everything one step can do, by the request it takes. -/
theorem step_performsTo (h : step s = .next t) :
    t = s ∨ ∃ r rest, s.requests = r :: rest ∧ PerformsTo (s.setRequests rest) r t := by
  obtain ⟨-, -, rfl⟩ | ⟨r, rest, hreq, hp⟩ := step_next h
  · exact .inl rfl
  · exact .inr ⟨r, rest, hreq, performsTo_of_perform hp⟩

/-! ### The modes, the configuration and ROM -/

theorem PerformsTo.emergency_eq {r : Request} (h : PerformsTo s r t) :
    t.emergency = s.emergency ∨ (r = .setEmergency ∧ t.emergency = true) := by
  cases h with
  | transaction _ hexec =>
    obtain ⟨-, -, -, -, he, -, -⟩ := exec_next_keeps hexec
    exact .inl he
  | setEmergency => exact .inr ⟨rfl, rfl⟩
  | _ => exact .inl rfl

theorem PerformsTo.debug_eq {r : Request} (h : PerformsTo s r t) :
    t.debug = s.debug ∨ r = .setDebug t.debug := by
  cases h with
  | transaction _ hexec =>
    obtain ⟨-, -, -, hd, -, -, -⟩ := exec_next_keeps hexec
    exact .inl hd
  | setDebug b => exact .inr rfl
  | _ => exact .inl rfl

theorem PerformsTo.cfg_eq {r : Request} (h : PerformsTo s r t) : t.cfg = s.cfg := by
  cases h with
  | transaction _ hexec => exact (exec_next_keeps hexec).1
  | _ => rfl

/-- A loaded ROM stays: the second load, the only request that could replace it, is refused (R23). -/
theorem PerformsTo.rom_eq {r : Request} (h : PerformsTo s r t) (hb : s.booted = true) :
    t.booted = true ∧ t.rom = s.rom := by
  cases h with
  | transaction _ hexec =>
    obtain ⟨-, hbooted, hrom, -⟩ := exec_next_keeps hexec
    exact ⟨hbooted.trans hb, hrom⟩
  | loadRom hnot => simp [hb] at hnot
  | _ => exact ⟨hb, rfl⟩

/-- Settles O46: by the request the step takes, one mode at a time. -/
theorem onlyTheHostChangesModes : Obligations.OnlyTheHostChangesModes := by
  intro s t h
  obtain rfl | ⟨r, rest, hreq, hp⟩ := step_performsTo h
  · exact ⟨id, absurd rfl, absurd rfl⟩
  · refine ⟨fun hs => ?_, fun hne => ?_, fun hne => ?_⟩
    · obtain he | ⟨-, he⟩ := hp.emergency_eq
      · exact he.trans hs
      · exact he
    · obtain he | ⟨rfl, -⟩ := hp.emergency_eq
      · exact absurd he hne
      · exact ⟨rest, hreq⟩
    · obtain hd | rfl := hp.debug_eq
      · exact absurd hd hne
      · exact ⟨rest, hreq⟩

/-- Settles O54: taking the request touches neither, and performing it keeps both. -/
theorem configurationAndRomAreConstant : Obligations.ConfigurationAndRomAreConstant := by
  intro s t h
  obtain rfl | ⟨r, rest, -, hp⟩ := step_performsTo h
  · exact ⟨rfl, fun hb => ⟨hb, rfl⟩⟩
  · exact ⟨hp.cfg_eq, hp.rom_eq⟩

/-! ### The bytes that a write changes -/

/-- The case split of R130 on PRG_RAM: the cell of an address that decodes to RAM, and no other (R132). -/
theorem busWrite_ramRead (a : Addr) (v : Byte) (s : State) (o : Nat) :
    (busWrite a v s).ramRead o =
      if regionOf s.cfg a = .ram ∧ o = offsetFrom s.cfg.ramStart a then v else s.ramRead o := by
  unfold busWrite
  cases regionOf s.cfg a <;> simp [State.sampleBank_state, State.devWrite]

/-- The case split of R130 on WAV_RAM: the cell, in the sampled bank, of an address that decodes to WAV, and no other
(R133). -/
theorem busWrite_wavRead (a : Addr) (v : Byte) (s : State) (k : Bank) (o : Nat) :
    (busWrite a v s).wavRead k o =
      if regionOf s.cfg a = .wav ∧ k = s.sampleBank.1 ∧ o = offsetFrom s.cfg.wavStart a then v
      else s.wavRead k o := by
  unfold busWrite
  cases regionOf s.cfg a <;> simp [State.sampleBank_state, State.devWrite]

/-- The only transaction that changes a byte of PRG_RAM is WR, at the cell of an address that decodes to RAM (R24). -/
theorem exec_ramRead_ne {i : Instr} {o : Nat} (h : exec i s = .next t) (hne : t.ramRead o ≠ s.ramRead o) :
    ∃ a v, i = .wr a v ∧ regionOf s.cfg a = .ram ∧ o = offsetFrom s.cfg.ramStart a ∧ t.ramRead o = v := by
  cases i with
  | rd a => obtain ⟨-, rfl⟩ := execRd_next h; simp at hne
  | nm a => obtain ⟨-, rfl⟩ := execNm_next h; simp at hne
  | br k p => obtain ⟨-, ⟨-, rfl⟩ | ⟨-, rfl⟩⟩ := execBr_next h <;> simp at hne
  | bw k p v => obtain ⟨-, ⟨-, rfl⟩ | ⟨-, rfl⟩⟩ := execBw_next h <;> simp at hne
  | wr a v =>
    obtain ⟨-, rfl⟩ := execWr_next h
    simp only [State.logAccess_ramRead, State.annotate_ramRead, busWrite_ramRead] at hne ⊢
    split at hne
    · next hcell =>
      obtain ⟨hregion, ho⟩ := hcell
      exact ⟨a, v, rfl, hregion, ho, if_pos ⟨hregion, ho⟩⟩
    · exact absurd rfl hne

/-- The only transactions that change a byte of WAV_RAM are WR, at the cell in the sampled bank of an address that decodes
to WAV, and BW, at its cell (R25). -/
theorem exec_wavRead_ne {i : Instr} {k : Bank} {o : Nat} (h : exec i s = .next t)
    (hne : t.wavRead k o ≠ s.wavRead k o) :
    (∃ a v, i = .wr a v ∧ regionOf s.cfg a = .wav ∧ o = offsetFrom s.cfg.wavStart a ∧ k = s.sampleBank.1 ∧
      t.wavRead k o = v) ∨
    ∃ p v, i = .bw k p v ∧ o = p.toNat ∧ t.wavRead k o = v := by
  cases i with
  | rd a => obtain ⟨-, rfl⟩ := execRd_next h; simp at hne
  | nm a => obtain ⟨-, rfl⟩ := execNm_next h; simp at hne
  | br j p => obtain ⟨-, ⟨-, rfl⟩ | ⟨-, rfl⟩⟩ := execBr_next h <;> simp at hne
  | wr a v =>
    obtain ⟨-, rfl⟩ := execWr_next h
    simp only [State.logAccess_wavRead, State.annotate_wavRead, busWrite_wavRead] at hne ⊢
    split at hne
    · next hcell =>
      obtain ⟨hregion, hk, ho⟩ := hcell
      exact .inl ⟨a, v, rfl, hregion, ho, hk, if_pos ⟨hregion, hk, ho⟩⟩
    · exact absurd rfl hne
  | bw j p v =>
    obtain ⟨-, ⟨-, rfl⟩ | ⟨-, rfl⟩⟩ := execBw_next h
    · simp at hne
    · rw [State.wavWrite_wavRead] at hne ⊢
      split at hne
      · next hcell =>
        obtain ⟨rfl, rfl⟩ := hcell
        exact .inr ⟨p, v, rfl, rfl, if_pos ⟨rfl, rfl⟩⟩
      · exact absurd rfl hne

/-- No request that asks for no transaction changes a byte of PRG_RAM or WAV_RAM. -/
theorem PerformsTo.exec_or_same_bytes {r : Request} (h : PerformsTo s r t) :
    (∃ i, r.Asks i ∧ exec i s = .next t) ∨
    ((∀ o, t.ramRead o = s.ramRead o) ∧ ∀ k o, t.wavRead k o = s.wavRead k o) := by
  cases h with
  | transaction hask hexec => exact .inl ⟨_, hask, hexec⟩
  | _ => exact .inr ⟨fun _ => rfl, fun _ _ => rfl⟩

/-- Settles O55: the changed byte names the transaction that changed it, and the request asked for that one. -/
theorem onlyWrChangesRam : Obligations.OnlyWrChangesRam := by
  intro s t o h hne
  obtain rfl | ⟨r, rest, hreq, hp⟩ := step_performsTo h
  · exact absurd rfl hne
  · obtain ⟨i, hask, hexec⟩ | ⟨hram, -⟩ := hp.exec_or_same_bytes
    · obtain ⟨a, v, rfl, hregion, ho, hv⟩ := exec_ramRead_ne hexec hne
      refine ⟨a, v, rest, ?_, hregion, ho, hv⟩
      obtain rfl | ⟨w, rfl, hdec⟩ := hask.wr_cases
      · exact .inl hreq
      · exact .inr ⟨w, hreq, hdec⟩
    · exact absurd (hram o) hne

/-- Settles O56: the changed byte names the transaction that changed it, and the request asked for that one. -/
theorem onlyWrAndBwChangeWav : Obligations.OnlyWrAndBwChangeWav := by
  intro s t k o h hne
  obtain rfl | ⟨r, rest, hreq, hp⟩ := step_performsTo h
  · exact absurd rfl hne
  · obtain ⟨i, hask, hexec⟩ | ⟨-, hwav⟩ := hp.exec_or_same_bytes
    · obtain ⟨a, v, rfl, hregion, ho, hk, hv⟩ | ⟨p, v, rfl, ho, hv⟩ := exec_wavRead_ne hexec hne
      · refine .inl ⟨a, v, rest, ?_, hregion, ho, hk, hv⟩
        obtain rfl | ⟨w, rfl, hdec⟩ := hask.wr_cases
        · exact .inl hreq
        · exact .inr ⟨w, hreq, hdec⟩
      · obtain ⟨w, rfl, hdec⟩ := hask.bw_cases
        exact .inr ⟨v, p, w, rest, hreq, hdec, ho, hv⟩
    · exact absurd (hwav k o) hne

/-! ### The invariant -/

namespace State.Inv

/-- The invariant speaks of the configuration, the storage arrays, ROM with its load, and the fault mark. -/
theorem congr (h : s.Inv) (hcfg : t.cfg = s.cfg := by simp) (hram : t.ram = s.ram := by simp)
    (hwav : t.wav = s.wav := by simp) (hbooted : t.booted = s.booted := by simp) (hrom : t.rom = s.rom := by simp)
    (hfault : t.fault = s.fault := by simp) : t.Inv where
  ramWf := by rw [hram]; exact h.ramWf
  ramBelow := by rw [hram, hcfg]; exact h.ramBelow
  wavWf k := by rw [bank_congr hwav]; exact h.wavWf k
  wavBelow k := by rw [bank_congr hwav, hcfg]; exact h.wavBelow k
  romLoaded := by rw [hbooted, hrom, hcfg]; exact h.romLoaded
  faultLegal := by rw [hfault, hcfg]; exact h.faultLegal

theorem raise {r : FaultRecord} (h : s.Inv) (hr : r.Legal s.cfg) : (s.raise r).Inv :=
  { h with
    faultLegal := fun _ heq => by cases heq; exact hr }

theorem ramWrite {o : Nat} (v : Byte) (h : s.Inv) (ho : (o : Int) < s.cfg.ramSize) : (s.ramWrite o v).Inv :=
  { h with
    ramWf := Memory.wf_write o v h.ramWf
    ramBelow := Memory.below_write v h.ramBelow ho }

theorem wavWrite {o : Nat} (k : Bank) (v : Byte) (h : s.Inv) (ho : (o : Int) < s.cfg.bankSize) :
    (s.wavWrite k o v).Inv :=
  { h with
    wavWf := fun j => by
      rw [wavWrite_bank]
      split
      · exact Memory.wf_write o v (h.wavWf k)
      · exact h.wavWf j
    wavBelow := fun j => by
      rw [wavWrite_bank]
      split
      · exact Memory.below_write v (h.wavBelow k) ho
      · exact h.wavBelow j }

/-- Boot loads the image only when it has ROM_SIZE bytes (R242). -/
theorem loadImage (h : s.Inv) (hfits : s.cfg.wfImage = true) : s.loadImage.Inv :=
  { h with
    romLoaded := fun _ => ⟨rfl, of_decide_eq_true hfits⟩ }

theorem sampleBank (h : s.Inv) : s.sampleBank.2.Inv := by
  rw [sampleBank_state]
  exact h.congr

/-- A write on the BUS port stays inside its array, by the range that decoded it (R132, R133, R156). -/
theorem busWrite (a : Addr) (v : Byte) (h : s.Inv) : (busWrite a v s).Inv := by
  unfold Machine.busWrite
  cases hregion : regionOf s.cfg a with
  | ram => exact h.ramWrite v (ramOffset_lt hregion)
  | wav => exact h.sampleBank.wavWrite _ v (by simpa [sampleBank_state] using wavOffset_lt hregion)
  | rom | cart | openBus => exact h
  | pia | fdc => exact h.congr (t := s.record _)
  | snd | flt => exact h.congr

end State.Inv

theorem offsetOutside_iff {c : Cfg} {o : Addr} : offsetOutside c o = true ↔ c.bankSize ≤ (o.toNat : Int) :=
  decide_eq_true_iff

theorem offsetOutside_eq_false_iff {c : Cfg} {o : Addr} :
    offsetOutside c o = false ↔ (o.toNat : Int) < c.bankSize :=
  decide_eq_false_iff_not.trans not_le

theorem exec_keeps_inv {i : Instr} (h : exec i s = .next t) (hi : s.Inv) : t.Inv := by
  cases i with
  | rd a =>
    obtain ⟨-, rfl⟩ := execRd_next h
    exact hi.congr
  | wr a v =>
    obtain ⟨-, rfl⟩ := execWr_next h
    exact (hi.busWrite a v).congr
  | nm a =>
    obtain ⟨-, rfl⟩ := execNm_next h
    exact hi.congr
  | br k o =>
    obtain ⟨-, ⟨hout, rfl⟩ | ⟨-, rfl⟩⟩ := execBr_next h
    · exact hi.raise (offsetOutside_iff.mp hout)
    · exact hi.congr
  | bw k o v =>
    obtain ⟨-, ⟨hout, rfl⟩ | ⟨hin, rfl⟩⟩ := execBw_next h
    · exact hi.raise (offsetOutside_iff.mp hout)
    · exact hi.wavWrite k v (offsetOutside_eq_false_iff.mp hin)

theorem PerformsTo.keeps_inv {r : Request} (h : PerformsTo s r t) (hi : s.Inv) : t.Inv := by
  cases h with
  | transaction _ hexec => exact exec_keeps_inv hexec hi
  | badOp hdec _ => exact hi.raise ⟨_, hdec⟩
  | loadRom _ hfits => exact hi.loadImage hfits
  | setDebug | reportFault | setEmergency | traceLine => exact hi.congr
  | traceSilent => exact hi

/-- Settles O53: taking a request keeps the invariant, and so does everything that performing it can do. -/
theorem stepKeepsTheInvariant : Obligations.StepKeepsTheInvariant := by
  intro s t hi h
  obtain rfl | ⟨r, rest, -, hp⟩ := step_performsTo h
  · exact hi
  · exact hp.keeps_inv hi.congr

/-- At power-on nothing is stored, loaded or marked, under every configuration. -/
theorem powerOn_inv (c : Cfg) : (State.powerOn c).Inv where
  ramWf := Memory.wf_nil
  ramBelow _ hp := absurd hp List.not_mem_nil
  wavWf k := by simp [State.bank, State.powerOn]
  wavBelow k := by simp [State.bank, State.powerOn]
  romLoaded hb := nomatch hb
  faultLegal _ hr := nomatch hr

/-- Settles O52: startup is power-on with the image loaded, and CFG_REF's image fits. -/
theorem resetMeetsTheInvariant : Obligations.ResetMeetsTheInvariant := by
  have hstarted : ∀ c : Cfg, c.wfImage = true → (State.started c).Inv :=
    fun c hfits => (powerOn_inv c).loadImage hfits
  exact ⟨hstarted, hstarted Config.cfgRef Config.cfgRef_wfImage⟩

/-! ### ROM under the invariant -/

/-- A ROM address has its byte in the image, which has ROM_SIZE bytes (R23, R242). -/
theorem romImage_at_offset {a : Addr} (hi : s.Inv) (hb : s.booted = true) (hregion : regionOf s.cfg a = .rom) :
    s.cfg.romImage[offsetFrom s.cfg.romStart a]? = some (s.romRead (offsetFrom s.cfg.romStart a)) := by
  obtain ⟨himage, hsize⟩ := hi.romLoaded hb
  have hlt : offsetFrom s.cfg.romStart a < s.rom.length := by
    have := romOffset_lt hregion
    omega
  simp [← himage, State.romRead, hlt]

/-- Settles O20: RD answers what ROM holds at the offset, which is the image's byte. -/
theorem romAddressesReadTheImage : Obligations.RomAddressesReadTheImage := by
  intro s a hi hready hregion
  refine ⟨s.romRead (offsetFrom s.cfg.romStart a), _, romImage_at_offset hi hready.1 hregion,
    execRd_ready a hready, ?_⟩
  simp [busRead, hregion]

end Sys2Proof.Machine
end

section
/-!
PROOFS. The memory map and the store: the resolved maps of the two named configurations and their well-formedness
(R46 to R50), and the bytes that reads answer on either port (R42, R58, R60).
-/

namespace Sys2Proof.Machine

variable {s t : State}

/-! ### The region of an interval of addresses -/

/-- The regions of the eight tests of R100, each with its range of R46 (c), in the order of the tests. -/
def regionRanges (c : Cfg) : List (Region × (Nat × Nat)) :=
  List.zip [.rom, .ram, .wav, .cart, .pia, .fdc, .snd, .flt] c.ranges

theorem regionTests_eq_map (c : Cfg) (a : Addr) :
    regionTests c a = (regionRanges c).map fun q => (q.1, decide (q.2.1 ≤ a.toNat ∧ a.toNat ≤ q.2.2)) := by
  simp [regionTests, regionRanges, Cfg.ranges, inRange_eq_decide, pageOf_eq_iff]

/-- The region of all addresses from `lo` to `hi` at once: that of the first range that covers the interval, where every
range before it misses the interval; none where a range cuts it. -/
def resolveInterval (lo hi : Nat) : List (Region × (Nat × Nat)) → Option Region
  | [] => some .openBus
  | (r, p) :: rest =>
    if p.1 ≤ lo ∧ hi ≤ p.2 then some r else if hi < p.1 ∨ p.2 < lo then resolveInterval lo hi rest else none

/-- A resolved interval gives the region of the first range that has the address, for each address in it. -/
theorem find_of_resolveInterval {lo hi n : Nat} {r : Region} (hlo : lo ≤ n) (hhi : n ≤ hi)
    (l : List (Region × (Nat × Nat))) (h : resolveInterval lo hi l = some r) :
    (((l.map fun q => (q.1, decide (q.2.1 ≤ n ∧ n ≤ q.2.2))).find? fun q => q.2).map Prod.fst).getD .openBus = r := by
  induction l with
  | nil => exact Option.some.inj h
  | cons q rest ih =>
    obtain ⟨r', p⟩ := q
    simp only [resolveInterval] at h
    split at h
    · next hcover =>
      have hin : p.1 ≤ n ∧ n ≤ p.2 := by omega
      simpa [hin] using h
    · split at h
      · next hmiss =>
        have hout : ¬ (p.1 ≤ n ∧ n ≤ p.2) := by omega
        rw [List.map_cons, List.find?_cons_of_neg (by simpa using hout)]
        exact ih h
      · cases h

/-- `regionOf` on a resolved interval (R100, R103). -/
theorem regionOf_of_resolveInterval {c : Cfg} {lo hi : Nat} {r : Region} {a : Addr}
    (h : resolveInterval lo hi (regionRanges c) = some r) (hlo : lo ≤ a.toNat) (hhi : a.toNat ≤ hi) :
    regionOf c a = r := by
  rw [regionOf_eq_find, regionTests_eq_map]
  exact find_of_resolveInterval hlo hhi _ h

/-- A table whose rows `(lo, hi, region)` resolve is right at every address of every row. -/
theorem regionOf_of_rows {c : Cfg} {rows : List (Nat × Nat × Region)}
    (h : ∀ row ∈ rows, resolveInterval row.1 row.2.1 (regionRanges c) = some row.2.2) (a : Addr)
    (row : Nat × Nat × Region) (hrow : row ∈ rows) (hlo : row.1 ≤ a.toNat) (hhi : a.toNat ≤ row.2.1) :
    regionOf c a = row.2.2 :=
  regionOf_of_resolveInterval (h row hrow) hlo hhi

/-- Settles O17: each row of both tables resolves to its region. -/
theorem resolvedMaps : Obligations.ResolvedMaps :=
  ⟨regionOf_of_rows (by decide), regionOf_of_rows (by decide)⟩

/-! ### The named configurations -/

/-- R47: in CFG_S89 the device pages lie inside ROM's range. -/
theorem cfgS89_wfDisjoint : Config.cfgS89.wfDisjoint = false := by decide

/-- Settles O18: the clauses on the maps are decided, and the images have their lengths by `cfgRef_wfImage` and
`cfgS89_wfImage`. -/
theorem namedConfigurationsWellFormedness : Obligations.NamedConfigurationsWellFormedness := by
  have hbounds : Config.cfgRef.wfBounds = true := by decide
  have hcart : Config.cfgRef.wfCart = true := by decide
  have hdisjoint : Config.cfgRef.wfDisjoint = true := by decide
  have hpages : Config.cfgRef.wfPages = true := by decide
  refine ⟨?_, ?_, cfgS89_wfDisjoint, by decide, by decide, by decide, Config.cfgS89_wfImage⟩
  · simp [Cfg.wf, hbounds, hcart, hdisjoint, hpages, Config.cfgRef_wfImage]
  · simp [Cfg.wf, cfgS89_wfDisjoint]

/-! ### What an access leaves ready, and what it answers -/

/-- The modes decide whether a transaction has its step. -/
theorem State.SameModes.ready (h : s.SameModes t) (hs : s.Ready) : t.Ready := by
  obtain ⟨-, hbooted, -, hemergency, hfault, -⟩ := h
  obtain ⟨hb, hf, he⟩ := hs
  exact ⟨hbooted.trans hb, hfault.trans hf, hemergency.trans he⟩

/-- RD answers the byte of R120 and keeps the storage and the modes. -/
theorem exec_rd_ready (a : Addr) (h : s.Ready) :
    ∃ t, exec (.rd a) s = .next t ∧ t.responses = s.responses ++ [.byte (busRead a s).1] ∧
      s.SameStorage t ∧ s.SameModes t :=
  ⟨_, execRd_ready a h, by simp, by simp [State.SameStorage], by simp [State.SameModes]⟩

/-- WR has the effect of R130 on the bytes of WAV_RAM, and keeps the modes and the responses. -/
theorem exec_wr_ready (a : Addr) (v : Byte) (h : s.Ready) :
    ∃ t, exec (.wr a v) s = .next t ∧ t.responses = s.responses ∧
      (∀ k o, t.wavRead k o =
        if regionOf s.cfg a = .wav ∧ k = s.sampleBank.1 ∧ o = offsetFrom s.cfg.wavStart a then v
        else s.wavRead k o) ∧
      s.SameModes t :=
  ⟨_, execWr_ready a v h, by simp, by simp [busWrite_wavRead], by simp [State.SameModes]⟩

/-- BR below BANK_SIZE answers its cell (R152). -/
theorem exec_br_inside (k : Bank) {o : Addr} (h : s.Ready) (ho : (o.toNat : Int) < s.cfg.bankSize) :
    exec (.br k o) s = .next (s.answer (.byte (s.wavRead k o.toNat))) := by
  simp [exec, execBr_ready k o h, offsetOutside_eq_false_iff.mpr ho]

/-- BW below BANK_SIZE writes its cell (R153). -/
theorem exec_bw_inside (k : Bank) {o : Addr} (v : Byte) (h : s.Ready) (ho : (o.toNat : Int) < s.cfg.bankSize) :
    exec (.bw k o v) s = .next (s.wavWrite k o.toNat v) := by
  simp [exec, execBw_ready k o v h, offsetOutside_eq_false_iff.mpr ho]

/-- RD of a WAV address reads the sampled bank (R123). -/
theorem busRead_wav_value {a : Addr} (h : regionOf s.cfg a = .wav) :
    (busRead a s).1 = s.wavRead s.sampleBank.1 (offsetFrom s.cfg.wavStart a) := by
  simp [busRead, h, State.sampleBank_state]

/-- Outside the PIA and FDC windows the byte read depends on the configuration, the storage and, for WAV, the sampled
bank alone (R120). -/
theorem busRead_value_congr {a : Addr} (hcfg : t.cfg = s.cfg) (hstore : s.SameStorage t)
    (hpia : regionOf s.cfg a ≠ .pia) (hfdc : regionOf s.cfg a ≠ .fdc)
    (hbank : regionOf s.cfg a = .wav → t.sampleBank.1 = s.sampleBank.1) : (busRead a t).1 = (busRead a s).1 := by
  obtain ⟨hrom, hram, hwav⟩ := hstore
  cases hregion : regionOf s.cfg a with
  | rom => simp [busRead, hcfg, hregion, hrom]
  | ram => simp [busRead, hcfg, hregion, hram]
  | wav =>
    rw [busRead_wav_value hregion, busRead_wav_value (hcfg ▸ hregion), hbank hregion, hcfg]
    exact hwav _ _
  | pia => exact absurd hregion hpia
  | fdc => exact absurd hregion hfdc
  | cart | snd | flt | openBus => simp [busRead, hcfg, hregion]

/-- Settles O24: the first RD keeps storage and modes, so the second has its step and reads the same byte. -/
theorem repeatedReadsAgree : Obligations.RepeatedReadsAgree := by
  intro s a hready hpia hfdc
  obtain ⟨t, hexec, hresp, hstore, hmodes⟩ := exec_rd_ready a hready
  refine ⟨t, _, hexec, hresp, fun hbank => ?_⟩
  obtain ⟨u, hexec', hresp', -⟩ := exec_rd_ready a (hmodes.ready hready)
  rw [busRead_value_congr hmodes.1 hstore hpia hfdc hbank] at hresp'
  exact ⟨u, hexec', hresp'⟩

/-! ### The two ports share the store -/

/-- The PIA's next listed answer selects the bank (R150). -/
theorem sampleBank_listed {p : Byte} {rest : List Byte} (h : s.piaAnswers = p :: rest) :
    s.sampleBank.1 = bankOf p := by
  rw [State.sampleBank_bank, State.deviceAnswer_listed s 0x00#8 ((State.answersOf_pia s).trans h)]

/-- RD of a WAV address answers the byte just stored in the cell of the bank that the PIA selects. -/
theorem busRead_wavWrite_value {a : Addr} (v : Byte) (hregion : regionOf s.cfg a = .wav) :
    (busRead a (s.wavWrite s.sampleBank.1 (offsetFrom s.cfg.wavStart a) v)).1 = v :=
  (busRead_wav_value (s := s.wavWrite ..) hregion).trans
    ((State.wavWrite_wavRead ..).trans (if_pos ⟨rfl, rfl⟩))

/-- What the BANK port writes to the bank that the PIA selects, the BUS port reads. -/
theorem rd_after_bw {a : Addr} (v : Byte) (hready : s.Ready) (hregion : regionOf s.cfg a = .wav) :
    ∃ t u, exec (.bw s.sampleBank.1 (a - s.cfg.wavStart) v) s = .next t ∧ exec (.rd a) t = .next u ∧
      u.responses = s.responses ++ [.byte v] := by
  obtain ⟨u, hexec, hresp, -⟩ :=
    exec_rd_ready (s := s.wavWrite s.sampleBank.1 (offsetFrom s.cfg.wavStart a) v) a hready
  rw [busRead_wavWrite_value v hregion] at hresp
  exact ⟨_, u, exec_bw_inside _ v hready (wavOffset_lt hregion), hexec, hresp⟩

/-- What the BUS port writes, the BANK port reads in the bank that the PIA selected. -/
theorem br_after_wr {a : Addr} (v : Byte) (hready : s.Ready) (hregion : regionOf s.cfg a = .wav) :
    ∃ t u, exec (.wr a v) s = .next t ∧ exec (.br s.sampleBank.1 (a - s.cfg.wavStart)) t = .next u ∧
      u.responses = s.responses ++ [.byte v] := by
  obtain ⟨t, hexec, hresp, hwav, hmodes⟩ := exec_wr_ready a v hready
  have hinside : ((a - s.cfg.wavStart).toNat : Int) < t.cfg.bankSize := by
    rw [hmodes.1]
    exact wavOffset_lt hregion
  have hcell : t.wavRead s.sampleBank.1 (a - s.cfg.wavStart).toNat = v :=
    (hwav _ _).trans (if_pos ⟨hregion, rfl, rfl⟩)
  refine ⟨t, _, hexec, exec_br_inside _ (hmodes.ready hready) hinside, ?_⟩
  rw [State.answer_responses, hresp, hcell]

/-- Settles O35: the PIA's listed answer selects the bank that both orders, BW before RD and WR before BR, go to. -/
theorem portsShareTheStore : Obligations.PortsShareTheStore := by
  intro s a v p rest hready hregion hpia
  have hbank : s.sampleBank.1 = p.extractLsb' 0 2 := sampleBank_listed hpia
  rw [← hbank]
  exact ⟨rd_after_bw v hready hregion, br_after_wr v hready hregion⟩

end Sys2Proof.Machine
end

section
/-!
PROOFS. The encoding: the request words field by field in both directions (R71 to R74, R79), the assembler's operand
ranges (R82), and the output codes of the decoder/mux and the labeler (R76, R77, R109, R176).
-/

namespace Sys2Proof

/-! ### The decoder on each operation code (R72, R74) -/

section Words

variable (op k : BitVec 2) (a : Addr) (d : Byte)

theorem decode_busWord_rd : decode (.bus (busWord 0b00#2 a d)) = .ok (.rd a) := decode_busWord ..

theorem decode_busWord_wr : decode (.bus (busWord 0b01#2 a d)) = .ok (.wr a d) := decode_busWord ..

theorem decode_busWord_nm : decode (.bus (busWord 0b10#2 a d)) = .ok (.nm a) := decode_busWord ..

theorem decode_bankWord_br : decode (.bank (bankWord 0b00#2 k a d)) = .ok (.br k a) := decode_bankWord ..

theorem decode_bankWord_bw : decode (.bank (bankWord 0b01#2 k a d)) = .ok (.bw k a d) := decode_bankWord ..

/-! ### The formulas of R71 and R74 -/

/-- `{OP, ADDR, DATA}` is `(OP << 24) | (ADDR << 8) | DATA` (R71). -/
theorem busWord_eq_or :
    busWord op a d = (op.setWidth 26 <<< 24) ||| (a.setWidth 26 <<< 8) ||| d.setWidth 26 :=
  (BitVec.setWidth_eq _).symm.trans BitVec.setWidth_append_append_eq_shiftLeft_setWidth_or

/-- `{OP2, BANK, OFFSET, DATA}` is `(OP2 << 26) | (BANK << 24) | (OFFSET << 8) | DATA` (R74). -/
theorem bankWord_eq_or :
    bankWord op k a d =
      (op.setWidth 28 <<< 26) ||| (k.setWidth 28 <<< 24) ||| (a.setWidth 28 <<< 8) ||| d.setWidth 28 :=
  (BitVec.setWidth_eq _).symm.trans BitVec.setWidth_append_append_append_eq_shiftLeft_setWidth_or

/-! ### The ignored DATA bits (R73, R74) -/

/-- A mask put together like a BUS word masks each field on its own. -/
theorem busWord_and_busWord (op' : BitVec 2) (a' : Addr) (d' : Byte) :
    busWord op a d &&& busWord op' a' d' = busWord (op &&& op') (a &&& a') (d &&& d') :=
  BitVec.and_append.trans (congrArg (· ++ _) BitVec.and_append)

/-- A mask put together like a BANK word masks each field on its own. -/
theorem bankWord_and_bankWord (op' k' : BitVec 2) (a' : Addr) (d' : Byte) :
    bankWord op k a d &&& bankWord op' k' a' d' = bankWord (op &&& op') (k &&& k') (a &&& a') (d &&& d') :=
  BitVec.and_append.trans (congrArg (· ++ _)
    (BitVec.and_append.trans (congrArg (· ++ _) BitVec.and_append)))

/-- The mask of a BUS word's OP and ADDR clears DATA. -/
theorem busWord_and_mask : busWord op a d &&& 0x3FFFF00#26 = busWord op a 0x00#8 := by
  have hmask : 0x3FFFF00#26 = busWord (BitVec.allOnes 2) (BitVec.allOnes 16) 0x00#8 := by decide
  rw [hmask, busWord_and_busWord, BitVec.and_allOnes, BitVec.and_allOnes, BitVec.and_zero]

/-- The mask of a BANK word's OP2, BANK and OFFSET clears DATA. -/
theorem bankWord_and_mask : bankWord op k a d &&& 0xFFFFF00#28 = bankWord op k a 0x00#8 := by
  have hmask : 0xFFFFF00#28 = bankWord (BitVec.allOnes 2) (BitVec.allOnes 2) (BitVec.allOnes 16) 0x00#8 := by decide
  rw [hmask, bankWord_and_bankWord]
  simp only [BitVec.and_allOnes, BitVec.and_zero]

end Words

/-- A BUS word that decodes to an instruction is the instruction's word, up to the DATA that RD and NM ignore (R73). -/
theorem encode_of_decode_bus {v : BitVec 26} {i : Instr} (h : decode (.bus v) = .ok i) :
    encode i = .bus (if busOpField v = 0b01#2 then v else v &&& 0x3FFFF00#26) := by
  obtain ⟨op, a, d, rfl⟩ : ∃ op a d, busWord op a d = v := ⟨_, _, _, busWord_fields v⟩
  rw [busWord_and_mask, busOpField, busWord_op]
  rw [decode_busWord] at h
  split_ifs at h with hrd hwr hnm
  · cases h; subst hrd; rfl
  · cases h; subst hwr; rfl
  · cases h; subst hnm; rfl

/-- A BANK word that decodes to an instruction is the instruction's word, up to the DATA that BR ignores (R74). -/
theorem encode_of_decode_bank {v : BitVec 28} {i : Instr} (h : decode (.bank v) = .ok i) :
    encode i = .bank (if bankOpField v = 0b01#2 then v else v &&& 0xFFFFF00#28) := by
  obtain ⟨op, k, o, d, rfl⟩ : ∃ op k o d, bankWord op k o d = v := ⟨_, _, _, _, bankWord_fields v⟩
  rw [bankWord_and_mask, bankOpField, bankWord_op]
  rw [decode_bankWord] at h
  split_ifs at h with hbr hbw
  · cases h; subst hbr; rfl
  · cases h; subst hbw; rfl

/-! ### The statements about request words -/

/-- Settles O1: each instruction is assembled with its own operation code, on which the decoder gives it back. -/
theorem decodeEncodeRoundTrip : Obligations.DecodeEncodeRoundTrip := by
  intro i
  cases i with
  | rd a => exact decode_busWord_rd a 0x00#8
  | wr a d => exact decode_busWord_wr a d
  | nm a => exact decode_busWord_nm a 0x00#8
  | br k o => exact decode_bankWord_br k o 0x00#8
  | bw k o d => exact decode_bankWord_bw k o d

/-- Settles O2: the formula is the word put together from its fields. -/
theorem busWordFields : Obligations.BusWordFields := by
  intro op a d
  rw [← busWord_eq_or]
  exact decode_busWord op a d

/-- Settles O3: the formula is the word put together from its fields; BR's OP2 and DATA are 0 and drop out of it. -/
theorem bankWordFields : Obligations.BankWordFields := by
  constructor
  · intro op2 k o d
    rw [← bankWord_eq_or]
    exact decode_bankWord op2 k o d
  · intro k o
    simp [encode, bankWord_eq_or]

/-- Settles O4: the decoder on the codes of RD, NM and WR, whatever the DATA field holds. -/
theorem dataFieldUse : Obligations.DataFieldUse := by
  intro a d
  exact ⟨decode_busWord_rd a d, decode_busWord_nm a d, decode_busWord_wr a d, rfl, rfl⟩

/-- Settles O5: on either port the word is put together from its fields, and the mask clears DATA alone. -/
theorem decodedWordReencodes : Obligations.DecodedWordReencodes := by
  intro w i h
  cases w with
  | bus v => exact encode_of_decode_bus h
  | bank v => exact encode_of_decode_bank h

/-! ### The assembler's operands (R82) -/

/-- A line is an assembly error exactly when an operand is out of its range. -/
theorem AsmLine.toInstr?_eq_none_iff (l : AsmLine) : l.toInstr? = none ↔ ¬ l.wf := by
  unfold AsmLine.toInstr?
  split_ifs with h <;> simp [h]

/-- The assembler line that writes an instruction out, each operand as its number. -/
def Instr.asmLine : Instr → AsmLine
  | .rd a => .rd a.toNat
  | .wr a d => .wr a.toNat d.toNat
  | .nm a => .nm a.toNat
  | .br k o => .br k.toNat o.toNat
  | .bw k o d => .bw k.toNat o.toNat d.toNat

/-- A field holds only numbers in its range. -/
theorem Instr.asmLine_wf (i : Instr) : i.asmLine.wf := by
  cases i with
  | rd | wr | nm | br | bw => simp [asmLine, AsmLine.wf]; omega

/-- The line of an instruction assembles to that instruction. -/
theorem Instr.toInstr?_asmLine (i : Instr) : i.asmLine.toInstr? = some i := by
  unfold AsmLine.toInstr?
  rw [if_pos i.asmLine_wf]
  cases i with
  | rd | wr | nm | br | bw => simp only [asmLine, BitVec.ofNat_toNat, BitVec.setWidth_eq]

/-- Settles O7: a line fails only on its ranges, and every instruction is what its own line assembles to. -/
theorem assemblerRanges : Obligations.AssemblerRanges := by
  refine ⟨fun a => ?_, fun a => ?_, fun a d => ?_, fun k o => ?_, fun k o d => ?_,
    fun a => ⟨Instr.toInstr?_asmLine (.rd a), Instr.toInstr?_asmLine (.nm a)⟩,
    fun a d => Instr.toInstr?_asmLine (.wr a d), fun k o => Instr.toInstr?_asmLine (.br k o),
    fun k o d => Instr.toInstr?_asmLine (.bw k o d)⟩
  all_goals
    rw [AsmLine.toInstr?_eq_none_iff]
    simp only [AsmLine.wf, Bool.and_eq_true, decide_eq_true_eq]
    omega

end Sys2Proof

namespace Sys2Proof.Machine

/-! ### The output codes (R76, R77) -/

/-- Codes 9 to 15 are never produced (R76). -/
theorem Region.code_le (r : Region) : r.code.toNat ≤ 8 := by
  cases r <;> decide

/-- Settles O16: the select code is by definition the region's code, and no region's code is above 8. -/
theorem selectCodes : Obligations.SelectCodes :=
  ⟨fun _ _ => rfl, Region.code_le, rfl, rfl, rfl, rfl, rfl, rfl, rfl, rfl, rfl⟩

/-- KIND 7 is never produced (R77). -/
theorem Label.kind_le (l : Label) : l.code.1.toNat ≤ 6 := by
  cases l with
  | named i => exact Nat.zero_le 6
  | wav | winPia | winFdc | winSnd | busfault | default => decide

/-- Only a named label has an index other than 0 (R77). -/
theorem Label.idx_of_kind_ne_zero {l : Label} (h : l.code.1 ≠ 0#3) : l.code.2 = 0 := by
  cases l with
  | named i => exact absurd rfl h
  | wav | winPia | winFdc | winSnd | busfault | default => rfl

/-- KIND 0 is the code of the named labels alone (R77). -/
theorem Label.kind_eq_zero {l : Label} (h : l.code.1 = 0#3) : l = .named l.code.2 := by
  cases l with
  | named i => rfl
  | wav | winPia | winFdc | winSnd | busfault | default => exact absurd h (by decide)

/-- The text of a named label is its entry's (R176). -/
theorem Label.text_named {c : Cfg} {i : Nat} {e : Addr × String} (h : c.namedTable[i]? = some e) :
    (Label.named i).text c = some e.2 := by
  rw [Label.text, h, Option.map_some]

/-- The lookup names an entry only where the table search found it (R171). -/
theorem namedIndex?_of_labelOf {c : Cfg} {a : Addr} {i : Nat} (h : labelOf c a = .named i) :
    namedIndex? c a = some i := by
  unfold labelOf at h
  split at h
  · next j hj => cases h; exact hj
  · split_ifs at h

/-- A named label that the lookup gives has its entry in NAMED_TABLE (R77, R171). -/
theorem entry_of_labelOf {c : Cfg} {a : Addr} {i : Nat} (h : labelOf c a = .named i) :
    ∃ e, c.namedTable[i]? = some e := by
  obtain ⟨e, he, -⟩ := namedIndex?_some (namedIndex?_of_labelOf h)
  exact ⟨e, he⟩

/-- Every label that the lookup gives has a text (R176). -/
theorem labelOf_text (c : Cfg) (a : Addr) : ∃ x, (labelOf c a).text c = some x := by
  cases hl : labelOf c a with
  | named i =>
    obtain ⟨e, he⟩ := entry_of_labelOf hl
    exact ⟨e.2, Label.text_named he⟩
  | wav | winPia | winFdc | winSnd | busfault | default => exact ⟨_, rfl⟩

/-- The index of a named label that the lookup gives lies below N_NAMED (R77). -/
theorem labelOf_idx_lt {c : Cfg} {a : Addr} (h : (labelOf c a).code.1 = 0#3) :
    (labelOf c a).code.2 < c.namedTable.length := by
  obtain ⟨e, he⟩ := entry_of_labelOf (Label.kind_eq_zero h)
  exact (List.getElem?_eq_some_iff.mp he).1

/-- Settles O38: a named label of the lookup has its entry, which gives its text and bounds its index; the rest is the
tables of codes and texts. -/
theorem labelCodesAndTexts : Obligations.LabelCodesAndTexts :=
  ⟨fun c a => ⟨labelOf_text c a, (labelOf c a).kind_le, labelOf_idx_lt, Label.idx_of_kind_ne_zero⟩,
    fun _ _ _ => Label.text_named, fun _ => ⟨rfl, rfl, rfl, rfl, rfl, rfl⟩,
    fun _ => rfl, rfl, rfl, rfl, rfl, rfl, rfl⟩

end Sys2Proof.Machine
end

section
/-!
PROOFS. The decoder/mux: the eight tests of R100 decide in their order (R101, R103 to R105), under WF(Cfg) in any order
(R108), and the three readings of the page test are one (R102).
-/

namespace Sys2Proof.Machine

variable {c : Cfg} {a : Addr}

/-! ### The first test that holds -/

/-- The first test that holds gives the region (R103). -/
theorem regionOf_of_first {n : Nat} {r : Region} (hn : (regionTests c a)[n]? = some (r, true))
    (hfirst : ∀ (m : Nat) (q : Region × Bool), m < n → (regionTests c a)[m]? = some q → q.2 = false) :
    regionOf c a = r := by
  obtain ⟨hlt, hget⟩ := List.getElem?_eq_some_iff.mp hn
  have hfind : (regionTests c a).find? (fun q => q.2) = some (r, true) := by
    refine List.find?_eq_some_iff_getElem.mpr ⟨rfl, n, hlt, hget, fun m hm => ?_⟩
    rw [hfirst m _ hm (List.getElem?_eq_getElem (hm.trans hlt)), Bool.not_false]
  rw [regionOf_eq_find, hfind]
  rfl

/-- Where no test holds the region is OPEN (R103). -/
theorem regionOf_of_no_test (h : ∀ q ∈ regionTests c a, q.2 = false) : regionOf c a = .openBus := by
  have hfind : (regionTests c a).find? (fun q => q.2) = none := by
    simpa only [List.find?_eq_none, Bool.not_eq_true] using h
  rw [regionOf_eq_find, hfind]
  rfl

/-- A region other than OPEN has its test hold. -/
theorem mem_regionTests_of_regionOf {r : Region} (h : regionOf c a = r) (hr : r ≠ .openBus) :
    (r, true) ∈ regionTests c a := by
  rw [regionOf_eq_find] at h
  cases hfind : (regionTests c a).find? (fun q => q.2) with
  | none => rw [hfind] at h; exact absurd h.symm hr
  | some q =>
    obtain ⟨r', b⟩ := q
    obtain rfl : b = true := List.find?_some hfind
    rw [hfind] at h
    obtain rfl : r' = r := h
    exact List.mem_of_find?_eq_some hfind

/-- The page test as a quotient. -/
theorem pageOf_eq_iff_div {p : Byte} : pageOf a = p ↔ a.toNat / 256 = p.toNat := by
  rw [pageOf_eq_iff]
  omega

/-- Settles O11: the tests on numbers are the model's eight tests, of which `regionOf` takes the first that holds. -/
theorem firstMatchingRegionWins : Obligations.FirstMatchingRegionWins := by
  intro c a tests
  have htests : tests = regionTests c a := by
    have hflt : Config.fltPage.toNat = 0xE4 := rfl
    simp only [tests, regionTests, inRange_eq_decide, pageOf_eq_iff_div, hflt]
  rw [htests]
  exact ⟨fun _ _ => regionOf_of_first, regionOf_of_no_test⟩

/-- Settles O15: the four ranges miss the address by hypothesis, and none of the four pages is 0xE1. -/
theorem serialPageIsOpen : Obligations.SerialPageIsOpen := by
  intro c a hpage hrom hram hwav hcart hpia hfdc hsnd
  have hflt : (0xE1#8 : Byte) ≠ Config.fltPage := by decide
  apply regionOf_of_no_test
  simp [regionTests, hpage, hrom, hram, hwav, hcart, hpia.symm, hfdc.symm, hsnd.symm, hflt]

/-! ### Empty ranges (R104) -/

theorem inRange_eq_false_of_lt {lo hi : Addr} (h : hi < lo) (a : Addr) : inRange lo hi a = false := by
  rw [inRange_eq_decide, decide_eq_false_iff_not]
  have hlt : hi.toNat < lo.toNat := h
  omega

theorem regionOf_cart (h : regionOf c a = .cart) : inRange c.cartStart c.cartEnd a = true := by
  simpa [regionTests] using mem_regionTests_of_regionOf h

/-- Settles O14: each of the four regions needs its range test, which an empty range fails. -/
theorem emptyRangeMatchesNothing : Obligations.EmptyRangeMatchesNothing := by
  intro c a
  have hmiss {lo hi : Addr} (h : hi < lo) : ¬ inRange lo hi a = true := by
    rw [inRange_eq_false_of_lt h a]
    exact Bool.false_ne_true
  exact ⟨fun _ _ h => inRange_eq_false_of_lt h a, fun h => mt regionOf_rom (hmiss h),
    fun h => mt regionOf_ram (hmiss h), fun h => mt regionOf_wav (hmiss h), fun h => mt regionOf_cart (hmiss h)⟩

/-! ### Any order of the tests, under WF(Cfg) (R108) -/

/-- Disjoint ranges have no address in common. -/
theorem not_mem_both_of_disjoint {p q : Nat × Nat} (h : Cfg.disjoint p q = true) (n : Nat) :
    ¬ ((p.1 ≤ n ∧ n ≤ p.2) ∧ q.1 ≤ n ∧ n ≤ q.2) := by
  simp only [Cfg.disjoint, Bool.or_eq_true, decide_eq_true_eq] at h
  omega

/-- With the ranges pairwise disjoint no two of the eight tests hold together. -/
theorem regionTests_exclusive (h : c.wfDisjoint = true) (a : Addr) :
    (regionTests c a).Pairwise fun p q => ¬ (p.2 = true ∧ q.2 = true) := by
  have hranges : c.ranges.Pairwise fun p q => Cfg.disjoint p q = true := of_decide_eq_true h
  have hbools : ((regionTests c a).map Prod.snd).Pairwise fun x y => ¬ (x = true ∧ y = true) := by
    rw [regionTests_eq_ranges, List.pairwise_map]
    exact hranges.imp fun hpq => by simpa only [decide_eq_true_eq] using not_mem_both_of_disjoint hpq a.toNat
  exact List.pairwise_map.mp hbools

/-- Where no two members pass a test together, at most one passes it. -/
theorem countP_le_one_of_pairwise {α : Type} {p : α → Bool} {l : List α}
    (h : l.Pairwise fun x y => ¬ (p x = true ∧ p y = true)) : l.countP p ≤ 1 := by
  induction l with
  | nil => exact Nat.zero_le 1
  | cons x rest ih =>
    obtain ⟨hx, hrest⟩ := List.pairwise_cons.mp h
    by_cases hp : p x = true
    · have hnone : rest.countP p = 0 := List.countP_eq_zero.mpr fun y hy hpy => hx y hy ⟨hp, hpy⟩
      rw [List.countP_cons_of_pos hp, hnone]
    · rw [List.countP_cons_of_neg hp]
      exact ih hrest

/-- Where no two members pass a test together, the members that pass it are one member. -/
theorem subsingleton_of_pairwise {α : Type} {p : α → Bool} {l : List α}
    (h : l.Pairwise fun x y => ¬ (p x = true ∧ p y = true)) : {x ∈ l | p x = true}.Subsingleton := by
  have hsymm : Std.Symm fun x y => ¬ (p x = true ∧ p y = true) := ⟨fun _ _ hxy hyx => hxy hyx.symm⟩
  rintro x ⟨hx, hpx⟩ y ⟨hy, hpy⟩
  by_contra hne
  exact h.forall hx hy hne ⟨hpx, hpy⟩

/-- Settles O12: the ranges of the tests are pairwise disjoint, so at most one test holds, and in any order the search
finds that one. -/
theorem regionsExclusiveWhenWellFormed : Obligations.RegionsExclusiveWhenWellFormed := by
  intro c a hwf
  have hdisjoint : c.wfDisjoint = true := by
    simp only [Cfg.wf, Bool.and_eq_true] at hwf
    obtain ⟨⟨⟨-, hdisjoint⟩, -⟩, -⟩ := hwf
    exact hdisjoint
  have hexclusive := regionTests_exclusive hdisjoint a
  refine ⟨countP_le_one_of_pairwise hexclusive, fun l hperm => ?_⟩
  rw [← List.find?_eq_find?_of_perm hperm.symm (subsingleton_of_pairwise hexclusive), regionOf_eq_find]

/-! ### The page test (R102) -/

/-- The mask keeps the top byte in its place. -/
theorem and_pageMask (a : Addr) : a &&& 0xFF00#16 = (pageOf a).setWidth 16 <<< 8 := by
  have hmask : 0xFF00#16 = BitVec.allOnes 16 <<< 8 := by decide
  rw [hmask]
  refine BitVec.eq_of_getLsbD_eq fun i hi => ?_
  simp only [pageOf, BitVec.getLsbD_and, BitVec.getLsbD_shiftLeft, BitVec.getLsbD_allOnes, BitVec.getLsbD_setWidth,
    BitVec.getLsbD_extractLsb', hi]
  by_cases hlow : i < 8
  · simp [hlow]
  · have hbit : 8 + (i - 8) = i := by omega
    have hbyte : i - 8 < 8 := by omega
    have hword : i - 8 < 16 := by omega
    simp [hlow, hbit, hbyte, hword]

/-- The first address of a page. -/
theorem toNat_pageStart (p : Byte) : (p.setWidth 16 <<< 8).toNat = p.toNat * 256 := by
  simp only [BitVec.toNat_shiftLeft, BitVec.toNat_setWidth, Nat.shiftLeft_eq]
  have := p.isLt
  omega

/-- The last address of a page. -/
theorem toNat_pageEnd (p : Byte) : (p.setWidth 16 <<< 8 ||| 0xFF#16).toNat = p.toNat * 256 + 255 := by
  have hor := Nat.shiftLeft_add_eq_or_of_lt (i := 8) (b := 255) (by decide) p.toNat
  rw [Nat.shiftLeft_eq] at hor
  rw [BitVec.toNat_or, toNat_pageStart]
  exact hor.symm

/-- Two pages with one first address are one page. -/
theorem pageStart_inj {p q : Byte} : p.setWidth 16 <<< 8 = q.setWidth 16 <<< 8 ↔ p = q := by
  rw [← BitVec.toNat_inj, toNat_pageStart, toNat_pageStart, ← BitVec.toNat_inj]
  omega

/-- Settles O13: the mask leaves the first address of the address's own page, and a page is its 256 addresses. -/
theorem maskCompareIsTopByte : Obligations.MaskCompareIsTopByte := by
  intro page a
  constructor
  · rw [and_pageMask, pageStart_inj]
  · rw [BitVec.le_def, BitVec.le_def, toNat_pageStart, toNat_pageEnd, pageOf_eq_iff]

end Sys2Proof.Machine
end

section
/-!
PROOFS. The accesses of the BUS port: what RD and WR do in each region, with the device calls they make and the lines
they log (R120 to R142).
-/

namespace Sys2Proof.Machine

variable {s t u : State}

/-! ### What an access logs -/

/-- The lines an access logs after its effect: the annotation of R140, then the access line of R139. -/
def accessLines (c : Cfg) (debug : Bool) (op : BusOp) (a : Addr) (v : Byte) : List LogEvent :=
  (if regionOf c a = .ram ∧ labelOf c a ≠ .default then [.annotate a (labelOf c a)] else []) ++
    if debug then [.access op a (regionOf c a) v] else []

/-- Annotating and then logging an access appends its lines to the log and changes nothing else. -/
theorem State.logAccess_annotate (op : BusOp) (a : Addr) (v : Byte) (s : State) :
    (s.annotate a).logAccess op a v = { s with log := s.log ++ accessLines s.cfg s.debug op a v } := by
  have hlog : ((s.annotate a).logAccess op a v).log = s.log ++ accessLines s.cfg s.debug op a v := by
    simp only [State.logAccess, State.annotate_debug, State.annotate_cfg, accessLines]
    unfold State.annotate
    split <;> split <;> simp
  rw [State.logAccess_eq, hlog, State.annotate_eq]

/-- At a RAM address the annotation depends on the label alone (R140). -/
theorem accessLines_of_ram {c : Cfg} {a : Addr} (h : regionOf c a = .ram) (debug : Bool) (op : BusOp) (v : Byte) :
    accessLines c debug op a v =
      (if labelOf c a = .default then [] else [.annotate a (labelOf c a)]) ++
        if debug then [.access op a .ram v] else [] := by
  simp [accessLines, h]

/-! ### RD and WR, given the case splits of R120 and R130 -/

/-- RD answers the byte `v` that R120 reads; the device calls of R120's effect `u` are all that it makes, and RD's own
lines come after those of `u`. -/
theorem exec_rd_of_busRead {a : Addr} {v : Byte} (hready : s.Ready) (hread : busRead a s = (v, u)) :
    ∃ t, exec (.rd a) s = .next t ∧ t.responses = s.responses ++ [.byte v] ∧ s.SameStorage t ∧ s.SameModes t ∧
      u.SameDevices t ∧ t.log = u.log ++ accessLines s.cfg s.debug .rd a v := by
  obtain ⟨rfl, rfl⟩ := Prod.ext_iff.mp hread
  exact ⟨_, execRd_ready a hready, by simp, by simp [State.SameStorage], by simp [State.SameModes],
    by simp [State.SameDevices], by simp [State.logAccess_annotate]⟩

/-- WR is R130's effect `u` with WR's own lines appended to the log. -/
theorem exec_wr_eq {a : Addr} {v : Byte} (hready : s.Ready) (hwrite : busWrite a v s = u) :
    exec (.wr a v) s = .next { u with log := u.log ++ accessLines s.cfg s.debug .wr a v } := by
  have hlines : accessLines u.cfg u.debug .wr a v = accessLines s.cfg s.debug .wr a v := by
    rw [← hwrite, busWrite_cfg, busWrite_debug]
  rw [← hlines, ← State.logAccess_annotate, ← hwrite]
  exact execWr_ready a v hready

/-- The same for the parts of the state: storage and device calls are those of R130's effect `u`. -/
theorem exec_wr_of_busWrite {a : Addr} {v : Byte} (hready : s.Ready) (hwrite : busWrite a v s = u) :
    ∃ t, exec (.wr a v) s = .next t ∧ t.responses = s.responses ∧ u.SameStorage t ∧ s.SameModes t ∧
      u.SameDevices t ∧ t.log = u.log ++ accessLines s.cfg s.debug .wr a v := by
  have hstore : u.SameStorage { u with log := u.log ++ accessLines s.cfg s.debug .wr a v } :=
    ⟨fun _ => rfl, fun _ => rfl, fun _ _ => rfl⟩
  exact ⟨_, exec_wr_eq hready hwrite, by simp [← hwrite], hstore, by simp [← hwrite, State.SameModes],
    ⟨rfl, rfl, rfl, rfl⟩, rfl⟩

/-! ### R120 and R130, region by region -/

/-- The region that forwards to a device model. -/
def windowOf : Device → Region
  | .pia => .pia
  | .fdc => .fdc

theorem regionOf_eq_window {c : Cfg} {a : Addr} {d : Device}
    (h : regionOf c a = .pia ∧ d = .pia ∨ regionOf c a = .fdc ∧ d = .fdc) : regionOf c a = windowOf d := by
  obtain ⟨h, rfl⟩ | ⟨h, rfl⟩ := h
  · exact h
  · exact h

section Regions

variable {a : Addr}

theorem busRead_of_rom (h : regionOf s.cfg a = .rom) :
    busRead a s = (s.romRead (offsetFrom s.cfg.romStart a), s) := by
  simp only [busRead, h]

theorem busRead_of_ram (h : regionOf s.cfg a = .ram) :
    busRead a s = (s.ramRead (offsetFrom s.cfg.ramStart a), s) := by
  simp only [busRead, h]

/-- The bank is sampled before the array is read (R123), and the call changes no byte of it. -/
theorem busRead_of_wav (h : regionOf s.cfg a = .wav) :
    busRead a s =
      (s.wavRead (bankOf (s.deviceAnswer .pia 0x00#8)) (offsetFrom s.cfg.wavStart a), (s.devRead .pia 0x00#8).2) := by
  simp [busRead, h, State.sampleBank_state]

theorem busRead_of_window {d : Device} (h : regionOf s.cfg a = windowOf d) : busRead a s = s.devRead d (indexOf a) := by
  cases d with
  | pia | fdc => simp only [busRead, h, windowOf]

/-- R124, R126 to R128: the regions behind which nothing is read. -/
theorem busRead_of_fixed (h : regionOf s.cfg a = .cart ∨ regionOf s.cfg a = .snd ∨ regionOf s.cfg a = .flt ∨
      regionOf s.cfg a = .openBus) :
    ∃ l, busRead a s = (0xFF#8, { s with log := s.log ++ l }) ∧
      (regionOf s.cfg a = .snd → l = [.sndRead (indexOf a)]) ∧
      (regionOf s.cfg a = .flt → l = [.fltRead (indexOf a)]) := by
  obtain h | h | h | h := h
  · exact ⟨[], by simp [busRead, h, Config.cartRd], by simp [h], by simp [h]⟩
  · exact ⟨[.sndRead (indexOf a)], by simp [busRead, h, Config.sndRd, State.emit], fun _ => rfl, by simp [h]⟩
  · exact ⟨[.fltRead (indexOf a)], by simp [busRead, h, Config.fltRd, State.emit], by simp [h], fun _ => rfl⟩
  · exact ⟨[], by simp [busRead, h, Config.openBus], by simp [h], by simp [h]⟩

theorem busWrite_of_ram (v : Byte) (h : regionOf s.cfg a = .ram) :
    busWrite a v s = s.ramWrite (offsetFrom s.cfg.ramStart a) v := by
  simp only [busWrite, h]

/-- The sample comes before the array write (R133). -/
theorem busWrite_of_wav (v : Byte) (h : regionOf s.cfg a = .wav) :
    busWrite a v s =
      (s.devRead .pia 0x00#8).2.wavWrite (bankOf (s.deviceAnswer .pia 0x00#8)) (offsetFrom s.cfg.wavStart a) v := by
  simp only [busWrite, h, State.sampleBank_state, State.sampleBank_bank]

theorem busWrite_of_window {d : Device} (v : Byte) (h : regionOf s.cfg a = windowOf d) :
    busWrite a v s = s.devWrite d (indexOf a) v := by
  cases d with
  | pia | fdc => simp only [busWrite, h, windowOf]

/-- R131, R134, R136 to R138: the regions in which a write is discarded. -/
theorem busWrite_of_discarding (v : Byte) (h : regionOf s.cfg a = .rom ∨ regionOf s.cfg a = .cart ∨
      regionOf s.cfg a = .snd ∨ regionOf s.cfg a = .flt ∨ regionOf s.cfg a = .openBus) :
    ∃ l, busWrite a v s = { s with log := s.log ++ l } ∧
      (regionOf s.cfg a = .snd → l = [.sndWrite (indexOf a) v]) ∧
      (regionOf s.cfg a = .flt → l = [.fltWrite (indexOf a) v]) := by
  obtain h | h | h | h | h := h
  · exact ⟨[], by simp [busWrite, h], by simp [h], by simp [h]⟩
  · exact ⟨[], by simp [busWrite, h], by simp [h], by simp [h]⟩
  · exact ⟨[.sndWrite (indexOf a) v], by simp [busWrite, h, State.emit], fun _ => rfl, by simp [h]⟩
  · exact ⟨[.fltWrite (indexOf a) v], by simp [busWrite, h, State.emit], by simp [h], fun _ => rfl⟩
  · exact ⟨[], by simp [busWrite, h], by simp [h], by simp [h]⟩

end Regions

/-! ### Device calls -/

namespace State

theorem SameDevices.answersOf_eq (h : s.SameDevices t) (d : Device) : t.answersOf d = s.answersOf d := by
  obtain ⟨-, hpia, hfdc, -⟩ := h
  cases d with
  | pia => exact hpia
  | fdc => exact hfdc

/-- `DevRead(d, i)` is one read call (R10). -/
theorem oneDevRead_devRead (d : Device) (i : Byte) (s : State) : s.OneDevRead d i (s.devRead d i).2 :=
  ⟨devRead_history s d i, by simp, fun e he => by simp [he], devRead_draws s d i⟩

/-- A read call followed by none is one read call. -/
theorem OneDevRead.trans_same {d : Device} {i : Byte} (h : s.OneDevRead d i t) (hsame : t.SameDevices u) :
    s.OneDevRead d i u := by
  obtain ⟨hhistory, hcalled, hother, hdraws⟩ := h
  exact ⟨hsame.1.trans hhistory, (hsame.answersOf_eq d).trans hcalled,
    fun e he => (hsame.answersOf_eq e).trans (hother e he), hsame.2.2.2.trans hdraws⟩

end State

/-! ### RD -/

/-- Settles O19: in both regions the effect of R120 is the state itself, so no device is called. -/
theorem rdAnswersRomAndRam : Obligations.RdAnswersRomAndRam := by
  intro s a hready
  constructor
  · intro hregion
    obtain ⟨t, hexec, hresp, hstore, hmodes, hdev, -⟩ := exec_rd_of_busRead hready (busRead_of_rom hregion)
    exact ⟨t, hexec, hresp, hstore, hmodes, hdev⟩
  · intro hregion
    obtain ⟨t, hexec, hresp, hstore, hmodes, hdev, -⟩ := exec_rd_of_busRead hready (busRead_of_ram hregion)
    exact ⟨t, hexec, hresp, hstore, hmodes, hdev⟩

/-- Settles O21: the one call is the bank sample, and what it answers selects the cell read. -/
theorem rdAnswersSampledBank : Obligations.RdAnswersSampledBank := by
  intro s a hready hregion
  obtain ⟨t, hexec, hresp, hstore, hmodes, hdev, -⟩ := exec_rd_of_busRead hready (busRead_of_wav hregion)
  exact ⟨wavOffset_lt hregion, t, hexec, hresp, (State.oneDevRead_devRead _ _ s).trans_same hdev, hstore, hmodes⟩

/-- Settles O22: the effect of R120 is the window's line, before the lines of every access. -/
theorem rdFixedValueRegions : Obligations.RdFixedValueRegions := by
  intro s a hready hregion
  obtain ⟨l, hread, hsnd, hflt⟩ := busRead_of_fixed hregion
  obtain ⟨t, hexec, hresp, hstore, hmodes, hdev, hlog⟩ := exec_rd_of_busRead hready hread
  have hline : (s.log ++ l) <+: t.log := hlog ▸ List.prefix_append _ _
  exact ⟨t, hexec, hresp, hstore, hmodes, hdev, fun h => hsnd h ▸ hline, fun h => hflt h ▸ hline⟩

/-- Settles O23: R120's byte and effect are those of the one call. -/
theorem rdForwardsToDevice : Obligations.RdForwardsToDevice := by
  intro s a d hready hregion
  obtain ⟨t, hexec, hresp, hstore, hmodes, hdev, -⟩ :=
    exec_rd_of_busRead hready (busRead_of_window (regionOf_eq_window hregion))
  exact ⟨t, hexec, hresp, (State.oneDevRead_devRead _ _ s).trans_same hdev, hstore, hmodes⟩

/-! ### WR -/

/-- Settles O25: the effect of R130 is the window's line, before the lines of every access. -/
theorem wrWithoutStorageChangesNothing : Obligations.WrWithoutStorageChangesNothing := by
  intro s a v hready hregion
  obtain ⟨l, hwrite, hsnd, hflt⟩ := busWrite_of_discarding v hregion
  have hline : l <+: l ++ accessLines s.cfg s.debug .wr a v := List.prefix_append _ _
  refine ⟨l ++ accessLines s.cfg s.debug .wr a v, ?_, fun h => hsnd h ▸ hline, fun h => hflt h ▸ hline⟩
  rw [exec_wr_eq hready hwrite, List.append_assoc]

/-- Settles O26: the write keeps the modes, so the read has its step and finds the byte in the cell. -/
theorem wrWritesRam : Obligations.WrWritesRam := by
  intro s a v hready hregion
  obtain ⟨t, hexec, hresp, ⟨hrom, hram, hwav⟩, hmodes, hdev, -⟩ :=
    exec_wr_of_busWrite hready (busWrite_of_ram v hregion)
  have hcell : ∀ o, t.ramRead o = if o = offsetFrom s.cfg.ramStart a then v else s.ramRead o :=
    fun o => (hram o).trans (State.ramWrite_ramRead ..)
  obtain ⟨u, hexec', hresp', -⟩ :=
    exec_rd_of_busRead (hmodes.ready hready) (busRead_of_ram (hmodes.1.symm ▸ hregion))
  rw [hresp, hmodes.1, hcell, if_pos rfl] at hresp'
  exact ⟨t, u, hexec, hcell, hrom, hwav, hmodes, hdev, hresp, hexec', hresp'⟩

/-- Settles O27: the bank sample is the one call, and the write goes to the bank it answers. -/
theorem wrWritesSampledBank : Obligations.WrWritesSampledBank := by
  intro s a v hready hregion
  obtain ⟨t, hexec, hresp, ⟨hrom, hram, hwav⟩, hmodes, hdev, -⟩ :=
    exec_wr_of_busWrite hready (busWrite_of_wav v hregion)
  have hcalls : s.OneDevRead .pia 0x00#8 t := (State.oneDevRead_devRead _ _ s).trans_same hdev
  refine ⟨wavOffset_lt hregion, t, hexec, fun k o => ?_, fun o => ?_, fun o => ?_, hcalls, hmodes, hresp⟩
  · rw [hwav, State.wavWrite_wavRead, State.devRead_wavRead]
    rfl
  · rw [hrom, State.wavWrite_romRead, State.devRead_romRead]
  · rw [hram, State.wavWrite_ramRead, State.devRead_ramRead]

/-- Settles O28: R130's effect is the one call, which keeps nothing but its event. -/
theorem wrForwardsToDevice : Obligations.WrForwardsToDevice := by
  intro s a v d hready hregion
  obtain ⟨t, hexec, hresp, hstore, hmodes, hdev, -⟩ :=
    exec_wr_of_busWrite hready (busWrite_of_window v (regionOf_eq_window hregion))
  exact ⟨t, hexec, hdev, hstore, hmodes, hresp⟩

/-- Settles O29: the write changes the log alone, and the byte read at a ROM address does not depend on the log. -/
theorem romIgnoresWrites : Obligations.RomIgnoresWrites := by
  intro s a b v hready ha hb
  obtain ⟨l, hexec, -⟩ := wrWithoutStorageChangesNothing s a v hready (.inl ha)
  obtain ⟨w, hbefore, hresp, -⟩ := exec_rd_of_busRead hready (busRead_of_rom hb)
  obtain ⟨u, hafter, hresp', -⟩ :=
    exec_rd_of_busRead (s := { s with log := s.log ++ l }) hready (busRead_of_rom hb)
  exact ⟨l, u, w, hexec, hafter, hbefore, hresp'.trans hresp.symm⟩

/-! ### The log of a RAM access -/

/-- Settles O30: at a RAM address neither access logs anything before its lines. -/
theorem ramAccessesAreAnnotated : Obligations.RamAccessesAreAnnotated := by
  intro s a v hready hregion
  obtain ⟨t, hrd, -, -, -, -, hlog⟩ := exec_rd_of_busRead hready (busRead_of_ram hregion)
  obtain ⟨u, hwr, -, -, -, -, hlog'⟩ := exec_wr_of_busWrite hready (busWrite_of_ram v hregion)
  rw [accessLines_of_ram hregion, ← List.append_assoc] at hlog hlog'
  exact ⟨t, u, hrd, hwr, hlog, hlog'⟩

/-! ### The number of device calls -/

/-- The device calls of an access to a region (R142). -/
def Region.deviceCalls (r : Region) : Nat := if r = .wav ∨ r = .pia ∨ r = .fdc then 1 else 0

/-- From `s` to `t` there were exactly `n` device calls. -/
def State.Calls (n : Nat) (s t : State) : Prop := ∃ l, t.history = s.history ++ l ∧ l.length = n

theorem State.Calls.zero (h : t.history = s.history) : s.Calls 0 t := ⟨[], by simp [h], rfl⟩

theorem State.Calls.one {e : DevEvent} (h : t.history = s.history ++ [e]) : s.Calls 1 t := ⟨[e], h, rfl⟩

theorem State.Calls.congr {n : Nat} (h : s.Calls n t) (hu : u.history = t.history) : s.Calls n u := by
  rwa [State.Calls, hu]

theorem busRead_calls (a : Addr) (s : State) : s.Calls (regionOf s.cfg a).deviceCalls (busRead a s).2 := by
  unfold busRead
  cases regionOf s.cfg a with
  | rom | ram | cart | snd | flt | openBus => exact .zero rfl
  | wav | pia | fdc => exact .one (State.devRead_history s _ _)

theorem busWrite_calls (a : Addr) (v : Byte) (s : State) :
    s.Calls (regionOf s.cfg a).deviceCalls (busWrite a v s) := by
  unfold busWrite
  cases regionOf s.cfg a with
  | rom | ram | cart | snd | flt | openBus => exact .zero rfl
  | wav => exact .one (State.devRead_history s _ _)
  | pia | fdc => exact .one rfl

/-- Settles O31: RD and WR call in their case splits alone, and NM, BR and BW nowhere. -/
theorem deviceCallCount : Obligations.DeviceCallCount := by
  intro s t i h
  cases i with
  | rd a =>
    obtain ⟨-, rfl⟩ := execRd_next h
    exact (busRead_calls a s).congr (by simp)
  | wr a v =>
    obtain ⟨-, rfl⟩ := execWr_next h
    exact (busWrite_calls a v s).congr (by simp)
  | nm a =>
    obtain ⟨-, rfl⟩ := execNm_next h
    exact State.Calls.zero rfl
  | br k o =>
    obtain ⟨-, ⟨-, rfl⟩ | ⟨-, rfl⟩⟩ := execBr_next h <;> exact State.Calls.zero rfl
  | bw k o v =>
    obtain ⟨-, ⟨-, rfl⟩ | ⟨-, rfl⟩⟩ := execBw_next h <;> exact State.Calls.zero rfl

end Sys2Proof.Machine
end

section
/-!
PROOFS. The banked store: BR and BW on both sides of BANK_SIZE (R152, R153, R202), and the independence of the banks
(R154).
-/

namespace Sys2Proof.Machine

variable {s t : State}

/-! ### The BANK port at or above BANK_SIZE -/

/-- BR at or above BANK_SIZE raises OffsetFault and answers nothing (R152, R202). -/
theorem exec_br_outside (k : Bank) {o : Addr} (h : s.Ready) (ho : s.cfg.bankSize ≤ (o.toNat : Int)) :
    exec (.br k o) s = .next (s.raise (.offsetFault k o)) := by
  simp [exec, execBr_ready k o h, offsetOutside_iff.mpr ho]

/-- BW at or above BANK_SIZE raises OffsetFault and writes nothing (R153, R202). -/
theorem exec_bw_outside (k : Bank) {o : Addr} (v : Byte) (h : s.Ready) (ho : s.cfg.bankSize ≤ (o.toNat : Int)) :
    exec (.bw k o v) s = .next (s.raise (.offsetFault k o)) := by
  simp [exec, execBw_ready k o v h, offsetOutside_iff.mpr ho]

/-- Settles O32: below BANK_SIZE the answer is the one effect, from BANK_SIZE on the mark is; the byte of a cell is the
one written last or the startup's draw. -/
theorem brAnswersCell : Obligations.BrAnswersCell := by
  intro s k o hready
  exact ⟨exec_br_inside k hready, fun _ => State.wavRead_written s, State.wavRead_unwritten s,
    exec_br_outside k hready⟩

/-- Settles O33: below BANK_SIZE the write of the one cell is the only effect, from BANK_SIZE on the mark is. -/
theorem bwWritesCell : Obligations.BwWritesCell := by
  intro s k o v hready
  refine ⟨fun ho => ⟨_, exec_bw_inside k v hready ho, fun j p => State.wavWrite_wavRead s k j o.toNat p v, ?_⟩,
    exec_bw_outside k v hready⟩
  exact ⟨fun _ => rfl, fun _ => rfl, ⟨rfl, rfl, rfl, rfl, rfl, rfl⟩, ⟨rfl, rfl, rfl, rfl⟩, rfl, rfl⟩

/-! ### The banks do not share cells -/

/-- BW changes no cell but the one it names, in any bank (R154). -/
theorem exec_bw_wavRead_other {k j : Bank} {o : Addr} {v : Byte} {p : Nat} (h : exec (.bw k o v) s = .next t)
    (hother : ¬ (j = k ∧ p = o.toNat)) : t.wavRead j p = s.wavRead j p := by
  by_contra hne
  obtain ⟨_, _, hinstr, -⟩ | ⟨_, _, hinstr, ho, -⟩ := exec_wavRead_ne h hne
  · cases hinstr
  · cases hinstr
    exact hother ⟨rfl, ho⟩

/-- Settles O34: WR writes the cell of the bank sampled then, RD reads the cell of the bank sampled now, and both take
the offset from the address. What the PIA answers in between is no part of the storage. -/
theorem banksAreIndependent : Obligations.BanksAreIndependent := by
  refine ⟨fun s a v hready hregion => ?_, fun _ _ _ _ _ _ _ => exec_bw_wavRead_other⟩
  obtain ⟨-, t, hwr, hwav, -, -, -, hmodes, hresp⟩ := wrWritesSampledBank s a v hready hregion
  refine ⟨t, hwr, fun j p hother => (hwav j p).trans (if_neg hother), fun answers draws => ?_⟩
  have hready' : State.Ready { t with piaAnswers := answers, draws := draws } := hmodes.ready hready
  obtain ⟨-, u, hrd, hanswer, -⟩ := rdAnswersSampledBank _ a hready' (hmodes.1.symm ▸ hregion)
  have hanswer' : u.responses = t.responses ++ [.byte (t.wavRead _ (a - t.cfg.wavStart).toNat)] := hanswer
  rw [hmodes.1, hwav, hresp] at hanswer'
  simp only [and_true] at hanswer'
  exact ⟨u, hrd, hanswer'⟩

end Sys2Proof.Machine
end

section
/-!
PROOFS. The labeler: NM answers the label and has no other effect (R177), and the steps of the lookup in their order
(R171 to R175).
-/

namespace Sys2Proof.Machine

/-! ### NM (R177) -/

/-- Wherever NM has a step, in emergency too, the answer is its one effect (R177). -/
theorem exec_nm_names {s : State} (a : Addr) (h : s.Names) :
    exec (.nm a) s = .next { s with responses := s.responses ++ [.label (labelOf s.cfg a)] } :=
  execNm_names a h

/-- Settles O36: the first NM keeps the configuration, so the second looks the same label up. -/
theorem nmAnswersLabel : Obligations.NmAnswersLabel := by
  refine ⟨fun s a => exec_nm_names a, fun s t u a _ hfirst hsecond => ?_⟩
  obtain ⟨-, rfl⟩ := execNm_next hfirst
  obtain ⟨-, rfl⟩ := execNm_next hsecond
  exact List.append_assoc ..

/-! ### The table search (R171) -/

variable {c : Cfg} {a : Addr}

/-- The search finds the first entry at the address (R171). -/
theorem namedIndex?_of_first {i : Nat} {e : Addr × String} (hi : c.namedTable[i]? = some e) (he : e.1 = a)
    (hfirst : ∀ j f, j < i → c.namedTable[j]? = some f → f.1 ≠ a) : namedIndex? c a = some i := by
  obtain ⟨hlt, rfl⟩ := List.getElem?_eq_some_iff.mp hi
  refine List.findIdx?_eq_some_iff_getElem.mpr ⟨hlt, beq_iff_eq.mpr he, fun j hj => ?_⟩
  have hne := hfirst j _ hj (List.getElem?_eq_getElem (hj.trans hlt))
  rwa [beq_iff_eq]

/-- The search fails where no entry is at the address (R171). -/
theorem namedIndex?_of_unnamed (h : ∀ e ∈ c.namedTable, e.1 ≠ a) : namedIndex? c a = none :=
  List.findIdx?_eq_none_iff.mpr fun e he => beq_eq_false_iff_ne.mpr (h e he)

theorem labelOf_of_namedIndex? {i : Nat} (h : namedIndex? c a = some i) : labelOf c a = .named i := by
  simp only [labelOf, h]

/-! ### The steps after the table (R172 to R175) -/

/-- The range test as the spec writes it (R43). -/
theorem inRange_iff_le {lo hi : Addr} : inRange lo hi a = true ↔ lo ≤ a ∧ a ≤ hi := by
  rw [inRange, Bool.and_eq_true, decide_eq_true_eq, decide_eq_true_eq]

/-- The mask-compare as the spec writes it (R173). -/
theorem maskMatches_iff {p : Byte} : maskMatches p a = true ↔ a &&& 0xFF00#16 = p.setWidth 16 <<< 8 :=
  decide_eq_true_iff

/-- The bus-fault step: page 0x7F, unless the legacy flag drops it (R174). -/
theorem busfaultTest_iff : (!c.legacyPrecedenceBug && maskMatches Config.busfaultPage a) = true ↔
    c.legacyPrecedenceBug = false ∧ a &&& 0xFF00#16 = 0x7F00#16 := by
  rw [Bool.and_eq_true, Bool.not_eq_true', maskMatches_iff]
  rfl

/-- Where the table has no entry, the label is that of the first of the remaining steps that matches (R172 to R175). -/
theorem labelOf_of_unnamed (h : ∀ e ∈ c.namedTable, e.1 ≠ a) :
    labelOf c a =
      if c.wavStart ≤ a ∧ a ≤ c.wavEnd then .wav
      else if a &&& 0xFF00#16 = c.piaPage.setWidth 16 <<< 8 then .winPia
      else if a &&& 0xFF00#16 = c.fdcPage.setWidth 16 <<< 8 then .winFdc
      else if a &&& 0xFF00#16 = c.sndPage.setWidth 16 <<< 8 then .winSnd
      else if c.legacyPrecedenceBug = false ∧ a &&& 0xFF00#16 = 0x7F00#16 then .busfault
      else .default := by
  simp only [labelOf, namedIndex?_of_unnamed h, inRange_iff_le, maskMatches_iff, busfaultTest_iff]

/-- Only the bus-fault step, which the legacy flag drops, gives BUSFAULT (R174). -/
theorem legacyPrecedenceBug_of_labelOf_busfault (h : labelOf c a = .busfault) : c.legacyPrecedenceBug = false := by
  unfold labelOf at h
  split at h
  · cases h
  · split_ifs at h with _ _ _ _ hbusfault
    exact (busfaultTest_iff.mp hbusfault).1

/-- Settles O37: a table entry decides first; without one each clause is its branch of the chain. -/
theorem labelPriorityChain : Obligations.LabelPriorityChain := by
  intro c a
  refine ⟨fun i e hi he hfirst => labelOf_of_namedIndex? (namedIndex?_of_first hi he hfirst), fun hunnamed => ?_,
    fun hlegacy hbusfault => ?_, rfl, rfl, rfl⟩
  · rw [labelOf_of_unnamed hunnamed]
    refine ⟨fun h => if_pos h, fun hwav => ?_⟩
    rw [if_neg hwav]
    refine ⟨fun h => if_pos h, fun hpia => ?_⟩
    rw [if_neg hpia]
    refine ⟨fun h => if_pos h, fun hfdc => ?_⟩
    rw [if_neg hfdc]
    exact ⟨fun h => if_pos h, fun hsnd => if_neg hsnd⟩
  · rw [legacyPrecedenceBug_of_labelOf_busfault hbusfault] at hlegacy
    exact Bool.false_ne_true hlegacy

end Sys2Proof.Machine
end

section
/-!
PROOFS. The two faults and the emergency mode: what stops a word, which words mark a fault, and that a fault changes
nothing but its mark (R200, R202, R203, R205, R206, R208, R211).
-/

namespace Sys2Proof

/-! ### The reserved codes (R72, R74) -/

theorem decode_bus_reserved {v : BitVec 26} (h : v.extractLsb' 24 2 = 0b11#2) : decode (.bus v) = .error .busOp := by
  rw [← busWord_fields v, h, decode_busWord]
  rfl

theorem decode_bank_reserved {v : BitVec 28} (h : v.extractLsb' 26 2 = 0b10#2 ∨ v.extractLsb' 26 2 = 0b11#2) :
    decode (.bank v) = .error .bankOp2 := by
  rw [← bankWord_fields v, decode_bankWord]
  obtain h | h := h <;> rw [h] <;> rfl

/-! ### The transactions that can mark a fault -/

/-- BR and BW name a cell by bank and offset; the other transactions name none (R152, R153). -/
inductive Instr.NamesCell : Instr → Bank → Addr → Prop
  | br (k : Bank) (o : Addr) : NamesCell (.br k o) k o
  | bw (k : Bank) (o : Addr) (v : Byte) : NamesCell (.bw k o v) k o

theorem Instr.NamesCell.br_or_bw {i : Instr} {k : Bank} {o : Addr} (h : i.NamesCell k o) :
    i = .br k o ∨ ∃ v, i = .bw k o v := by
  cases h with
  | br => exact .inl rfl
  | bw _ _ v => exact .inr ⟨v, rfl⟩

end Sys2Proof

namespace Sys2Proof.Machine

variable {s t : State} {w : ReqWord} {rest : List Request} {i : Instr}

/-! ### Reserved words (R203) -/

theorem perform_word_of_error {e : Reserved} (h : decode w = .error e) (s : State) :
    perform (.word w) s = badOp w s := by
  simp only [perform, execWord, h]

/-- A reserved word marks BadOp and is taken from the requests, and nothing else happens (R203). -/
theorem step_word_reserved {e : Reserved} (hready : s.Ready) (hreq : s.requests = .word w :: rest)
    (hdec : decode w = .error e) : step s = .next ((s.setRequests rest).raise (.badOp w)) := by
  rw [step_of_requests_cons hreq, perform_word_of_error hdec]
  exact transact_ready false _ hready

/-- Settles O39: the decoder refuses each of the three codes. -/
theorem reservedWordRaisesBadOp : Obligations.ReservedWordRaisesBadOp := by
  intro s rest hready
  exact ⟨fun _ hop hreq => step_word_reserved hready hreq (decode_bus_reserved hop),
    fun _ hop hreq => step_word_reserved hready hreq (decode_bank_reserved hop)⟩

/-! ### The checks before a word's own rule (R205, R208) -/

/-- After a fault a word of either port, reserved or not, has no step (R205). -/
theorem step_word_faulted {r : FaultRecord} (hb : s.booted = true) (hf : s.fault = some r)
    (hreq : s.requests = .word w :: rest) : step s = .fault (.stuckFaulted r) := by
  rw [step_of_requests_cons hreq]
  cases hdec : decode w with
  | ok i => exact (perform_word_of_decode hdec _).trans (exec_faulted i hb hf)
  | error e => exact (perform_word_of_error hdec _).trans (transact_faulted _ hb hf)

/-- In emergency a word of either port, reserved or not, has no step unless it is NM (R208). -/
theorem step_word_emergency (hb : s.booted = true) (hf : s.fault = none) (he : s.emergency = true)
    (hreq : s.requests = .word w :: rest) (hnm : ∀ a, decode w ≠ .ok (.nm a)) : step s = .fault .stuckEmergency := by
  rw [step_of_requests_cons hreq]
  cases hdec : decode w with
  | ok i =>
    have hi : ∀ a, i ≠ .nm a := fun a hia => hnm a (hia ▸ hdec)
    exact (perform_word_of_decode hdec _).trans (exec_emergency hb hf he hi)
  | error e => exact (perform_word_of_error hdec _).trans (transact_emergency _ hb hf he)

/-- Settles O43: the emergency check stops every word but NM, whose answer is its one effect in every mode. -/
theorem emergencyGatesAllButNm : Obligations.EmergencyGatesAllButNm := by
  intro s w rest hb hf he hreq
  refine ⟨step_word_emergency hb hf he hreq, fun a hdec => ?_⟩
  rw [stepRunsDecodedRequest s w rest _ hreq hdec]
  exact exec_nm_names a ⟨hb, hf⟩

/-! ### Which transactions mark a fault (R200, R202) -/

/-- In a ready state every transaction completes, the raise of a fault included (log entry 8). -/
theorem exec_completes (i : Instr) (h : s.Ready) : ∃ t, exec i s = .next t := by
  cases i with
  | rd a => exact ⟨_, execRd_ready a h⟩
  | wr a v => exact ⟨_, execWr_ready a v h⟩
  | nm a => exact ⟨_, execNm_names a h.names⟩
  | br k o =>
    obtain ho | ho := lt_or_ge (o.toNat : Int) s.cfg.bankSize
    · exact ⟨_, exec_br_inside k h ho⟩
    · exact ⟨_, exec_br_outside k h ho⟩
  | bw k o v =>
    obtain ho | ho := lt_or_ge (o.toNat : Int) s.cfg.bankSize
    · exact ⟨_, exec_bw_inside k v h ho⟩
    · exact ⟨_, exec_bw_outside k v h ho⟩

/-- At or above BANK_SIZE, BR and BW mark OffsetFault, and nothing else happens (R202). -/
theorem exec_outside {k : Bank} {o : Addr} (hi : i.NamesCell k o) (h : s.Ready)
    (ho : s.cfg.bankSize ≤ (o.toNat : Int)) : exec i s = .next (s.raise (.offsetFault k o)) := by
  cases hi with
  | br => exact exec_br_outside k h ho
  | bw _ _ v => exact exec_bw_outside k v h ho

/-- The mark after a transaction is that of a BR or BW at or above BANK_SIZE, and is its only effect (R202, R211). -/
theorem exec_next_marked {r : FaultRecord} (h : exec i s = .next t) (hr : t.fault = some r) :
    ∃ k o, i.NamesCell k o ∧ s.cfg.bankSize ≤ (o.toNat : Int) ∧ r = .offsetFault k o ∧ t = s.raise r := by
  obtain ⟨-, hnone⟩ := exec_next_names h
  cases i with
  | rd a =>
    obtain ⟨-, rfl⟩ := execRd_next h
    simp [hnone] at hr
  | wr a v =>
    obtain ⟨-, rfl⟩ := execWr_next h
    simp [hnone] at hr
  | nm a =>
    obtain ⟨-, rfl⟩ := execNm_next h
    simp [hnone] at hr
  | br k o =>
    obtain ⟨-, ⟨hout, rfl⟩ | ⟨-, rfl⟩⟩ := execBr_next h
    · cases hr
      exact ⟨k, o, .br k o, offsetOutside_iff.mp hout, rfl, rfl⟩
    · simp [hnone] at hr
  | bw k o v =>
    obtain ⟨-, ⟨hout, rfl⟩ | ⟨-, rfl⟩⟩ := execBw_next h
    · cases hr
      exact ⟨k, o, .bw k o v, offsetOutside_iff.mp hout, rfl, rfl⟩
    · simp [State.wavWrite, hnone] at hr

/-- A transaction that names no cell at or above BANK_SIZE completes and marks no fault (R200). -/
theorem exec_unmarked (h : s.Ready) (hin : ∀ k o, i.NamesCell k o → (o.toNat : Int) < s.cfg.bankSize) :
    ∃ t, exec i s = .next t ∧ t.fault = none := by
  obtain ⟨t, hexec⟩ := exec_completes i h
  refine ⟨t, hexec, Option.eq_none_iff_forall_ne_some.mpr fun r hr => ?_⟩
  obtain ⟨k, o, hi, ho, -, -⟩ := exec_next_marked hexec hr
  exact absurd (hin k o hi) (not_lt.mpr ho)

/-- BANK_SIZE is the boundary: from it on OffsetFault is marked, with the bank and offset named, and below it is not
(R202). -/
theorem bankSize_le_iff_marked {k : Bank} {o : Addr} (hi : i.NamesCell k o) (h : s.Ready) :
    s.cfg.bankSize ≤ (o.toNat : Int) ↔ ∃ t, exec i s = .next t ∧ t.fault = some (.offsetFault k o) := by
  constructor
  · intro ho
    exact ⟨_, exec_outside hi h ho, rfl⟩
  · rintro ⟨t, hexec, hmark⟩
    obtain ⟨_, _, -, ho, hrec, -⟩ := exec_next_marked hexec hmark
    cases hrec
    exact ho

/-- Settles O40: the boundary for BR and for BW, and the mark as the only effect of both. -/
theorem offsetFaultAtBankSize : Obligations.OffsetFaultAtBankSize := by
  intro s k o v hready
  refine ⟨bankSize_le_iff_marked (.br k o) hready, bankSize_le_iff_marked (.bw k o v) hready, fun t hrun hmark => ?_⟩
  obtain ⟨i, hexec⟩ : ∃ i, exec i s = .next t := hrun.elim (⟨_, ·⟩) (⟨_, ·⟩)
  obtain ⟨_, _, -, -, -, ht⟩ := exec_next_marked hexec hmark
  exact ht

/-- Settles O41: none of the three names a cell of a bank. -/
theorem rdWrNmNeverRaise : Obligations.RdWrNmNeverRaise := by
  intro s a v hready
  obtain ⟨t, hrd, ht⟩ := exec_unmarked (i := .rd a) hready nofun
  obtain ⟨u, hwr, hu⟩ := exec_unmarked (i := .wr a v) hready nofun
  obtain ⟨w, hnm, hw⟩ := exec_unmarked (i := .nm a) hready nofun
  exact ⟨t, u, w, hrd, ht, hwr, hu, hnm, hw⟩

/-! ### The checks in their order (R206) -/

/-- Settles O44: the mark is looked at first, then the mode, then the word's code, then the offset; a word that passes
them all runs unmarked. -/
theorem transactionPriority : Obligations.TransactionPriority := by
  intro s w rest hb hreq
  have hrun : ∀ i, decode w = .ok i → step s = exec i (s.setRequests rest) :=
    fun i => stepRunsDecodedRequest s w rest i hreq
  refine ⟨fun r hf => step_word_faulted hb hf hreq, fun hf he => step_word_emergency hb hf he hreq,
    fun hready e => step_word_reserved hready hreq, fun hready k o hdec ho => ?_, fun hready i hdec hin => ?_⟩
  · obtain hdec | ⟨v, hdec⟩ := hdec
    · exact (hrun _ hdec).trans (exec_outside (.br k o) hready ho)
    · exact (hrun _ hdec).trans (exec_outside (.bw k o v) hready ho)
  · have hready' : (s.setRequests rest).Ready := hready
    obtain ⟨t, hexec, ht⟩ := exec_unmarked hready' fun k o hi => hin k o hi.br_or_bw
    exact ⟨hrun i hdec, t, (hrun i hdec).trans hexec, ht⟩

/-! ### What a step that marks a fault does (R205, R211) -/

/-- BR and BW have no access of the host's that asks for them: a request for one is its word. -/
theorem Request.Asks.eq_word_of_namesCell {r : Request} {k : Bank} {o : Addr} (h : r.Asks i) (hi : i.NamesCell k o) :
    ∃ w, r = .word w := by
  cases h with
  | word => exact ⟨_, rfl⟩
  | memRead | memWrite => cases hi

/-- A request that changes the mark is a word in an unmarked state, and `raise` is all it does. -/
theorem PerformsTo.raises {r : Request} (h : PerformsTo s r t) (hne : t.fault ≠ s.fault) :
    ∃ f w, s.fault = none ∧ r = .word w ∧ t = s.raise f ∧ (f = .badOp w ∨ ∃ k o, f = .offsetFault k o) := by
  cases h with
  | transaction hask hexec =>
    obtain ⟨-, hnone⟩ := exec_next_names hexec
    obtain ⟨f, hf⟩ := Option.ne_none_iff_exists'.mp (hnone ▸ hne)
    obtain ⟨k, o, hi, -, hrec, ht⟩ := exec_next_marked hexec hf
    obtain ⟨w, hw⟩ := hask.eq_word_of_namesCell hi
    exact ⟨f, w, hnone, hw, ht, .inr ⟨k, o, hrec⟩⟩
  | badOp hdec hready =>
    obtain ⟨-, hnone, -⟩ := hready
    exact ⟨_, _, hnone, rfl, rfl, .inl rfl⟩
  | _ => exact absurd rfl hne

/-- Settles O45: taking the request leaves the mark alone, and performing it changes the mark only by `raise`. -/
theorem faultsArePrecise : Obligations.FaultsArePrecise := by
  intro s t hstep hne
  obtain rfl | ⟨r, rest, hreq, hp⟩ := step_performsTo hstep
  · exact absurd rfl hne
  · obtain ⟨f, w, hnone, rfl, ht, hf⟩ := hp.raises hne
    exact ⟨f, rest, w, hnone, hreq, ht, hf⟩

/-- Settles O42: a word is stopped by the mark, and a step that changes the mark starts without one. -/
theorem faultsAreFailStop : Obligations.FaultsAreFailStop := by
  refine ⟨fun s r w rest hb hf hreq => step_word_faulted hb hf hreq, fun s t r hf hstep => ?_⟩
  by_contra hne
  obtain ⟨_, _, _, hnone, -⟩ := faultsArePrecise s t hstep (hf ▸ hne)
  simp [hf] at hnone

end Sys2Proof.Machine
end

section
/-!
PROOFS. The host's acts on the block: the fault report with its stack reads and its last act, and the trace hooks
(R207, R209, R216).
-/

namespace Sys2Proof.Machine

/-! ### The stack reads of a fault report (R209) -/

/-- The `n` reads are at the addresses `a`, `a + 1`, …, modulo 2^16. -/
theorem stackReads_eq_map (n : Nat) (a : Addr) :
    stackReads n a = (List.range n).map fun m => Request.word (encode (.rd (a + BitVec.ofNat 16 m))) := by
  induction n generalizing a with
  | zero => rfl
  | succ n ih =>
    have haddr : ∀ m, a + 1#16 + BitVec.ofNat 16 m = a + BitVec.ofNat 16 (m + 1) := fun m => by
      rw [BitVec.add_assoc, ← BitVec.ofNat_add, Nat.add_comm]
    simp [stackReads, ih, haddr, List.range_succ_eq_map]

/-- The 17th read, at SP+16, where the free value has it (N22). -/
def seventeenthRead (sp : Addr) : List Request :=
  if Config.stackWalkReadsSeventeenth then [.word (encode (.rd (sp + 16#16)))] else []

theorem seventeenthRead_cases (sp : Addr) :
    seventeenthRead sp = [] ∨ seventeenthRead sp = [.word (encode (.rd (sp + 16#16)))] := by
  unfold seventeenthRead
  split
  · exact .inr rfl
  · exact .inl rfl

/-- A report reads the 16 bytes from SP on, and then the 17th or no other. -/
theorem stackReads_stackReadCount (sp : Addr) :
    stackReads stackReadCount sp =
      (List.range 16).map (fun m => Request.word (encode (.rd (sp + BitVec.ofNat 16 m)))) ++ seventeenthRead sp := by
  rw [stackReads_eq_map, stackReadCount, seventeenthRead]
  split
  · rw [List.range_succ, List.map_append]
    rfl
  · rw [List.append_nil]

/-- Settles O48: the report replaces the requests, by its reads, its last act and what was pending. -/
theorem reportFaultReadsTheStack : Obligations.ReportFaultReadsTheStack := by
  intro s sp rest hreq
  refine ⟨_, seventeenthRead sp, step_of_requests_cons hreq, rfl, ?_, seventeenthRead_cases sp⟩
  rw [← stackReads_stackReadCount]
  rfl

/-- Settles O47: the step takes the request and performs it, which no mode and no mark holds up. -/
theorem reportFaultEntersEmergency : Obligations.ReportFaultEntersEmergency :=
  fun _ _ hreq => step_of_requests_cons hreq

/-! ### Trace hooks (R216) -/

/-- A hook appends its line to the log when `debug` is set, and does nothing else. -/
theorem traceHook_eq (h : Hook) (dest : Addr) (s : State) :
    traceHook h dest s =
      { s with log := s.log ++ if s.debug then [.trace h dest (labelOf s.cfg dest)] else [] } := by
  unfold traceHook
  split
  · rfl
  · rw [List.append_nil]

/-- Settles O49: the step takes the hook's request, and the hook does nothing but append its line. -/
theorem traceHooksOnlyLog : Obligations.TraceHooksOnlyLog := by
  intro s h dest rest hreq
  have hstep : step s = .next (traceHook h dest (s.setRequests rest)) := step_of_requests_cons hreq
  rw [traceHook_eq] at hstep
  exact ⟨_, hstep, rfl, rfl⟩

end Sys2Proof.Machine
end

section
/-!
PROOFS. Boot and startup (R240, R242), and that neither the debug flag nor the log decides anything else (R139, R245).
-/

namespace Sys2Proof.Machine

/-! ### Boot and startup (R240, R242) -/

/-- The image is loaded when its length is ROM_SIZE (R46 e). -/
theorem loadRom_of_length {s : State} (hb : s.booted = false) (hlen : (s.cfg.romImage.length : Int) = s.cfg.romSize) :
    loadRom s = .next s.loadImage := by
  simp [loadRom, hb, Cfg.wfImage, hlen]

theorem loadRom_of_wrong_length {s : State} (hb : s.booted = false)
    (hlen : (s.cfg.romImage.length : Int) ≠ s.cfg.romSize) : loadRom s = .refused .romImageSize := by
  simp [loadRom, hb, Cfg.wfImage, hlen]

/-- Settles O50: the step performs the load, which the length of the image decides; a transaction's first check is that
ROM is loaded. -/
theorem bootLoadsTheImage : Obligations.BootLoadsTheImage := by
  refine ⟨fun c rest hlen => ?_, fun s rest hb hlen hreq => ?_, fun s i hb => exec_unbooted i hb⟩
  · rw [step_of_requests_cons rfl]
    exact loadRom_of_length rfl hlen
  · rw [step_of_requests_cons hreq]
    exact loadRom_of_wrong_length hb hlen

theorem started_bank (c : Cfg) (k : Bank) : (State.started c).bank k = [] := by
  simp [State.started, State.powerOn, State.bank]

/-- Settles O51: no cell is listed in `ram` or in a bank, so each reads as its draw; the rest stands in the definition. -/
theorem startupState : Obligations.StartupState := by
  intro c
  have hram : ∀ o, (State.started c).ramRead o = Config.startByte (State.started c).startup (.ram o) :=
    fun _ => State.ramRead_unwritten _ rfl
  have hwav : ∀ k o, (State.started c).wavRead k o = Config.startByte (State.started c).startup (.wav k o) :=
    fun k o => State.wavRead_unwritten _ (by rw [started_bank, Memory.read?])
  exact ⟨rfl, rfl, hram, hwav, rfl, rfl, rfl, rfl, rfl⟩

/-! ### The operations on an unobserved state

An operation that only logs leaves the unobserved state as it is; every other one commutes with leaving out what is
observed. -/

namespace State

variable (s : State)

@[simp] theorem unobserved_cfg : s.unobserved.cfg = s.cfg := rfl
@[simp] theorem unobserved_fault : s.unobserved.fault = s.fault := rfl
@[simp] theorem unobserved_wavRead (k : Bank) (o : Nat) : s.unobserved.wavRead k o = s.wavRead k o := rfl
@[simp] theorem unobserved_deviceAnswer (d : Device) (i : Byte) :
    s.unobserved.deviceAnswer d i = s.deviceAnswer d i := rfl

@[simp] theorem unobserved_idem : s.unobserved.unobserved = s.unobserved := rfl
@[simp] theorem emit_unobserved (e : LogEvent) : (s.emit e).unobserved = s.unobserved := rfl
@[simp] theorem setDebug_unobserved (b : Bool) : (s.setDebug b).unobserved = s.unobserved := rfl
@[simp] theorem answer_unobserved (r : Response) : (s.answer r).unobserved = s.unobserved.answer r := rfl
@[simp] theorem record_unobserved (e : DevEvent) : (s.record e).unobserved = s.unobserved.record e := rfl
@[simp] theorem raise_unobserved (r : FaultRecord) : (s.raise r).unobserved = s.unobserved.raise r := rfl
@[simp] theorem loadImage_unobserved : s.loadImage.unobserved = s.unobserved.loadImage := rfl
@[simp] theorem enterEmergency_unobserved : s.enterEmergency.unobserved = s.unobserved.enterEmergency := rfl
@[simp] theorem setRequests_unobserved (l : List Request) :
    (s.setRequests l).unobserved = s.unobserved.setRequests l := rfl
@[simp] theorem wavWrite_unobserved (k : Bank) (o : Nat) (v : Byte) :
    (s.wavWrite k o v).unobserved = s.unobserved.wavWrite k o v := rfl

@[simp] theorem takeAnswer_unobserved (d : Device) : (s.takeAnswer d).unobserved = s.unobserved.takeAnswer d := by
  have hlisted : s.unobserved.answersOf d = s.answersOf d := rfl
  unfold takeAnswer
  rw [hlisted]
  cases s.answersOf d with
  | nil => rfl
  | cons v rest => cases d <;> rfl

@[simp] theorem devRead_unobserved (d : Device) (i : Byte) :
    (s.devRead d i).2.unobserved = (s.unobserved.devRead d i).2 := by
  simp [devRead]

@[simp] theorem annotate_unobserved (a : Addr) : (s.annotate a).unobserved = s.unobserved := by
  rw [annotate_eq]
  rfl

@[simp] theorem logAccess_unobserved (op : BusOp) (a : Addr) (v : Byte) :
    (s.logAccess op a v).unobserved = s.unobserved := by
  rw [logAccess_eq]
  rfl

end State

@[simp] theorem traceHook_unobserved (h : Hook) (dest : Addr) (s : State) :
    (traceHook h dest s).unobserved = s.unobserved := by
  rw [traceHook_eq]
  rfl

@[simp] theorem reportFault_unobserved (sp : Addr) (s : State) :
    (reportFault sp s).unobserved = reportFault sp s.unobserved := rfl

/-- The byte of R120 does not depend on what is observed. -/
@[simp] theorem busRead_value_unobserved (a : Addr) (s : State) : (busRead a s.unobserved).1 = (busRead a s).1 := by
  unfold busRead
  rw [State.unobserved_cfg]
  cases regionOf s.cfg a with
  | rom | ram | cart | pia | fdc | snd | flt | openBus => rfl
  | wav => simp [State.sampleBank_state]

@[simp] theorem busRead_state_unobserved (a : Addr) (s : State) :
    (busRead a s.unobserved).2.unobserved = (busRead a s).2.unobserved := by
  unfold busRead
  rw [State.unobserved_cfg]
  cases regionOf s.cfg a with
  | rom | ram | cart | snd | flt | openBus => rfl
  | wav | pia | fdc => simp [State.sampleBank_state]

@[simp] theorem busWrite_unobserved (a : Addr) (v : Byte) (s : State) :
    (busWrite a v s.unobserved).unobserved = (busWrite a v s).unobserved := by
  unfold busWrite
  rw [State.unobserved_cfg]
  cases regionOf s.cfg a with
  | rom | ram | cart | pia | fdc | snd | flt | openBus => rfl
  | wav => simp [State.sampleBank_state]

/-! ### What does not look at the debug flag and the log -/

/-- An outcome whose next state, if it has one, is unobserved. -/
def unobservedOutcome : Host.Outcome State Fault Refusal → Host.Outcome State Fault Refusal
  | .next s => .next s.unobserved
  | .fault r => .fault r
  | .refused r => .refused r

theorem outcomesAgree_iff {x y : Host.Outcome State Fault Refusal} :
    OutcomesAgree x y ↔ unobservedOutcome x = unobservedOutcome y := by
  cases x <;> cases y <;> simp [OutcomesAgree, unobservedOutcome]

/-- `f` has the same outcome, but for the debug flag and the log, in a state and in that state unobserved. -/
def LogBlind (f : State → Host.Outcome State Fault Refusal) : Prop := ∀ s, OutcomesAgree (f s.unobserved) (f s)

namespace LogBlind

variable {f : State → Host.Outcome State Fault Refusal}

/-- The outcomes in two states that agree but for the flag and the log are both those in their unobserved state. -/
theorem agree (hf : LogBlind f) {s t : State} (h : s.unobserved = t.unobserved) : OutcomesAgree (f s) (f t) := by
  have hs := outcomesAgree_iff.mp (hf s)
  have ht := outcomesAgree_iff.mp (hf t)
  rw [outcomesAgree_iff, ← hs, ← ht, h]

theorem next {g : State → State} (h : ∀ s, (g s.unobserved).unobserved = (g s).unobserved) :
    LogBlind fun s => .next (g s) := h

theorem const (x : Host.Outcome State Fault Refusal) : LogBlind fun _ => x := fun _ => outcomesAgree_iff.mpr rfl

/-- A choice that does not look at the flag and the log either. -/
theorem branch {b : State → Bool} {g : State → Host.Outcome State Fault Refusal} (hb : ∀ s, b s.unobserved = b s)
    (hf : LogBlind f) (hg : LogBlind g) : LogBlind fun s => if b s then f s else g s := by
  intro s
  simp only [hb]
  split
  · exact hf s
  · exact hg s

/-- The checks of R206 look at the ROM load, the mark and the mode alone. -/
theorem transact (b : Bool) (hf : LogBlind f) : LogBlind fun s => transact b s f := by
  refine branch (fun _ => rfl) (fun s => ?_) (const _)
  rw [State.unobserved_fault]
  cases s.fault with
  | some r => exact const _ s
  | none => exact branch (b := fun s => s.emergency && !b) (fun _ => rfl) (const _) hf s

theorem exec (i : Instr) : LogBlind (exec i) := by
  cases i with
  | rd a => exact transact _ (next fun s => by simp)
  | wr a v => exact transact _ (next fun s => by simp)
  | nm a => exact transact _ (next fun s => by simp)
  | br k o => exact transact _ (branch (fun _ => rfl) (next fun s => by simp) (next fun s => by simp))
  | bw k o v => exact transact _ (branch (fun _ => rfl) (next fun s => by simp) (next fun s => by simp))

theorem badOp (w : ReqWord) : LogBlind (badOp w) := transact _ (next fun s => by simp)

theorem execWord (w : ReqWord) : LogBlind (execWord w) := by
  unfold Machine.execWord
  cases decode w with
  | ok i => exact exec i
  | error e => exact badOp w

theorem loadRom : LogBlind loadRom :=
  branch (fun _ => rfl) (const _) (branch (fun _ => rfl) (next fun s => by simp) (const _))

theorem perform (r : Request) : LogBlind (perform r) := by
  cases r with
  | word w => exact execWord w
  | memRead a n =>
    intro s
    rw [perform_memRead, perform_memRead]
    split
    · exact exec (.rd a) s
    · exact const _ s
  | memWrite a n v =>
    intro s
    rw [perform_memWrite, perform_memWrite]
    split
    · exact exec (.wr a v) s
    · exact const _ s
  | loadRom => exact loadRom
  | setDebug b => exact next fun s => by simp
  | reportFault sp => exact next fun s => by simp
  | setEmergency => exact next fun s => by simp
  | traceHook h dest => exact next fun s => by simp

theorem idle : LogBlind idle := by
  intro s
  unfold Machine.idle
  rw [State.unobserved_fault]
  cases s.fault with
  | none => exact s.unobserved_idem
  | some r => exact const _ s

theorem step : LogBlind step := by
  intro s
  cases hreq : s.requests with
  | nil =>
    rw [step_of_requests_nil hreq, step_of_requests_nil (s := s.unobserved) hreq]
    exact idle s
  | cons r rest =>
    rw [step_of_requests_cons hreq, step_of_requests_cons (s := s.unobserved) hreq,
      ← State.setRequests_unobserved]
    exact perform r (s.setRequests rest)

end LogBlind

/-- Settles O58: a step has, but for the flag and the log, the outcome that it has in the unobserved state. -/
theorem loggingChangesNothing : Obligations.LoggingChangesNothing :=
  fun _ _ h => LogBlind.step.agree h

end Sys2Proof.Machine
end

section
/-!
PROOFS. The words of 95_test_vectors.md L2.8: each is assembled from the fields that the table gives it, and the decoder's
lemma for its operation code reads them back.
-/

namespace Sys2Proof

/-- Settles O6: each word is put together from the fields the table lists, and the last has a reserved OP2. -/
theorem decodesWrittenWords : Obligations.DecodesWrittenWords := by
  have hwr : 0x1E2039C#26 = busWord 0b01#2 0xE203#16 0x9C#8 := by decide
  have hrd : 0x0FFFF00#26 = busWord 0b00#2 0xFFFF#16 0x00#8 := by decide
  have hnm : 0x2E205AB#26 = busWord 0b10#2 0xE205#16 0xAB#8 := by decide
  have hbw : 0x73EFF01#28 = bankWord 0b01#2 3#2 0x3EFF#16 0x01#8 := by decide
  have hbr : 0x1FFFF00#28 = bankWord 0b00#2 1#2 0xFFFF#16 0x00#8 := by decide
  have hreserved : (0xC3F0000#28).extractLsb' 26 2 = 0b11#2 := by decide
  unfold Obligations.DecodesWrittenWords
  rw [hwr, hrd, hnm, hbw, hbr]
  exact ⟨decode_busWord_wr _ _, decode_busWord_rd _ _, decode_busWord_nm _ _, decode_bankWord_bw _ _ _,
    decode_bankWord_br _ _ _, decode_bank_reserved (.inr hreserved)⟩

end Sys2Proof
end
